-- ==== Sys2Proof/Word.lean ====
section
/-! DEFINITION. The trit and the tryte: the only data units of CPU T-4 (00_scope.md rules R2, R3, R5).
What a tryte is worth as a number is in Machine/Arith.lean. -/

namespace Sys2Proof

/-- A trit: the source writes its three values `λ`, `0` and `1` (R3). -/
inductive Trit where
  | lam
  | zero
  | one
deriving DecidableEq, Repr, Inhabited

/-- Numeric meaning of a trit: λ = −1, 0 = 0, 1 = +1 (R4, decision D1; log entry 1). -/
def Trit.val : Trit → Int
  | .lam => -1
  | .zero => 0
  | .one => 1

/-- The trit with the opposite sign: λ ↔ 1, 0 stays 0 (R132). -/
def Trit.neg : Trit → Trit
  | .lam => .one
  | .zero => .zero
  | .one => .lam

/-- A tryte: six trits, `t[5]` written first and `t[0]` last, as the source writes an opcode (R2, R5).
The anonymous constructor therefore reads like a tryte literal of the spec. -/
structure Tryte where
  t5 : Trit
  t4 : Trit
  t3 : Trit
  t2 : Trit
  t1 : Trit
  t0 : Trit
deriving DecidableEq, Repr, Inhabited

/-- The tryte `000000`. -/
def Tryte.zeros : Tryte := ⟨.zero, .zero, .zero, .zero, .zero, .zero⟩

/-- The tryte `111111` (+364), the highest. -/
def Tryte.ones : Tryte := ⟨.one, .one, .one, .one, .one, .one⟩

/-- The tryte `λλλλλλ` (−364), the lowest. -/
def Tryte.lams : Tryte := ⟨.lam, .lam, .lam, .lam, .lam, .lam⟩

/-- The three-way selection `sel(s; vλ, v0, v1)` of the pseudocode (00_scope.md section 2.1). -/
def sel {α : Type} (s : Trit) (vLam vZero vOne : α) : α :=
  match s with
  | .lam => vLam
  | .zero => vZero
  | .one => vOne

end Sys2Proof
end

