-- ==== Sys2Proof/Syntax.lean ====
section
/-! DEFINITION. The instructions of CPU T-4: one constructor for each of the 35 rows of the opcode map
(30_encoding.md rule R70), in the table's order. `a` and `c` are source registers, `u` is a destination
register (R67), `i1` and `i2` the first and second immediate (R68). -/

namespace Sys2Proof

/-- The three registers (10_state.md rule R20). -/
inductive Reg where
  | rz
  | r0
  | r1
deriving DecidableEq, Repr

/-- The register a trit selects: λ RZ, 0 R0, 1 R1 (R20, R67). -/
def Reg.ofTrit : Trit → Reg
  | .lam => .rz
  | .zero => .r0
  | .one => .r1

/-- The trit that selects a register (R20, R67). -/
def Reg.trit : Reg → Trit
  | .rz => .lam
  | .r0 => .zero
  | .r1 => .one

/-- The three instruction families, which opcode trit T5 selects (R63). -/
inductive Family where
  | mov
  | alu
  | jxx
deriving DecidableEq, Repr

/-- An instruction. In a constructor's name `Mem` is the operand `[i1]`, `Imm` a bare immediate, and the
operands are named in the order of the assembly form (R70, R74); the arguments are the registers and the
immediates, i1 always before i2. -/
inductive Instr where
  -- 41_mov.md
  | movRegReg (a u : Reg)              -- row 1   `mov a → u`
  | movMemReg (i1 : Tryte) (u : Reg)   -- row 2   `mov [i1] → u`
  | movRegMem (a : Reg) (i1 : Tryte)   -- row 3   `mov a → [i1]`
  | movImmMem (i1 i2 : Tryte)          -- row 4   `mov i2 → [i1]`
  -- 42_alu.md
  | addRegRegMem (a c : Reg) (i1 : Tryte)      -- row 5   `add a, c → [i1]`
  | addMemRegReg (i1 : Tryte) (c u : Reg)      -- row 6   `add [i1], c → u`
  | addMemImmReg (i1 i2 : Tryte) (u : Reg)     -- row 7   `add [i1], i2 → u`
  | subRegRegMem (a c : Reg) (i1 : Tryte)      -- row 8   `sub a, c → [i1]`
  | subMemRegReg (i1 : Tryte) (c u : Reg)      -- row 9   `sub [i1], c → u`
  | subMemImmReg (i1 i2 : Tryte) (u : Reg)     -- row 10  `sub [i1], i2 → u`
  | nandRegRegMem (a c : Reg) (i1 : Tryte)     -- row 11  `nand a, c → [i1]`
  | nandMemRegReg (i1 : Tryte) (c u : Reg)     -- row 12  `nand [i1], c → u`
  | nandMemImmReg (i1 i2 : Tryte) (u : Reg)    -- row 13  `nand [i1], i2 → u`
  | mskRegRegMem (a c : Reg) (i1 : Tryte)      -- row 14  `msk a, c → [i1]`
  | mskMemRegReg (i1 : Tryte) (c u : Reg)      -- row 15  `msk [i1], c → u`
  | mskMemImmReg (i1 i2 : Tryte) (u : Reg)     -- row 16  `msk [i1], i2 → u`
  -- 43_codeflow.md
  | jmpMem (i1 : Tryte)           -- row 17  `jmp [i1]`
  | jmpImm (i1 : Tryte)           -- row 18  `jmp i1`
  | jlMem (i1 : Tryte)            -- row 19  `jl [i1]`
  | jlImm (i1 : Tryte)            -- row 20  `jl i1`
  | jeMem (i1 : Tryte)            -- row 21  `je [i1]`
  | jeImm (i1 : Tryte)            -- row 22  `je i1`
  | jgMem (i1 : Tryte)            -- row 23  `jg [i1]`
  | jgImm (i1 : Tryte)            -- row 24  `jg i1`
  | jleMemImm (i1 i2 : Tryte)     -- row 25  `jle [i1], i2`
  | jleImmImm (i1 i2 : Tryte)     -- row 26  `jle i1, i2`
  | jleImmMem (i1 i2 : Tryte)     -- row 27  `jle i2, [i1]`
  | jlgMemImm (i1 i2 : Tryte)     -- row 28  `jlg [i1], i2`
  | jlgImmImm (i1 i2 : Tryte)     -- row 29  `jlg i1, i2`
  | jlgImmMem (i1 i2 : Tryte)     -- row 30  `jlg i2, [i1]`
  | jegMemImm (i1 i2 : Tryte)     -- row 31  `jeg [i1], i2`
  | jegImmImm (i1 i2 : Tryte)     -- row 32  `jeg i1, i2`
  | jegImmMem (i1 i2 : Tryte)     -- row 33  `jeg i2, [i1]`
  | finish                        -- row 34  `finish`
  | reboot                        -- row 35  `reboot`
deriving DecidableEq, Repr

/-- `jng`, `jne` and `jnl` are second names of `jle`, `jlg` and `jeg`, with the same opcodes and operands
(R75). -/
abbrev Instr.jngMemImm := Instr.jleMemImm
@[inherit_doc Instr.jngMemImm] abbrev Instr.jngImmImm := Instr.jleImmImm
@[inherit_doc Instr.jngMemImm] abbrev Instr.jngImmMem := Instr.jleImmMem
@[inherit_doc Instr.jngMemImm] abbrev Instr.jneMemImm := Instr.jlgMemImm
@[inherit_doc Instr.jngMemImm] abbrev Instr.jneImmImm := Instr.jlgImmImm
@[inherit_doc Instr.jngMemImm] abbrev Instr.jneImmMem := Instr.jlgImmMem
@[inherit_doc Instr.jngMemImm] abbrev Instr.jnlMemImm := Instr.jegMemImm
@[inherit_doc Instr.jngMemImm] abbrev Instr.jnlImmImm := Instr.jegImmImm
@[inherit_doc Instr.jngMemImm] abbrev Instr.jnlImmMem := Instr.jegImmMem

end Sys2Proof
end

