-- ==== Sys2Proof/Config.lean ====
section
/-! DEFINITION. The parameters the spec leaves open (00_scope.md rule R10). A parameter without a recommended
or decided value is an opaque constant: no proof can see what it is, so a claim holds for every instance. A
parameter the spec decides has the decided default, and the operations that use it take it as an argument,
so that a claim about the other instance can be stated too. -/

namespace Sys2Proof.Config

/-- `K_CONST`, the const of `op2-mod = 1`, where `finish` and `reboot` send the instruction counter (R95,
D7). Free value, log entry 5. -/
opaque kConst : Tryte

/-- `NANY`, the ALU function of `nand` (R133, D5): assumed only to depend on its two operands. Free value,
log entry 6. -/
opaque nany : Tryte → Tryte → Tryte

/-- `LMUL`, the ALU function of `msk` (R134, D6): assumed only to depend on its two operands. Free value, log
entry 7. -/
opaque lmul : Tryte → Tryte → Tryte

/-- `RESET_IC`, the instruction counter after reset (R33, R200). DESIGN CHOICE `000000`, unsafe, log entry 4. -/
def resetIc : Tryte := Tryte.zeros

/-- What RZ, R0 and R1 hold at reset (R33 leaves it unspecified). DESIGN CHOICE `000000`, unsafe, log entry 3. -/
def resetReg : Tryte := Tryte.zeros

/-- What ZF holds at reset (R33 leaves it unspecified). DESIGN CHOICE the trit 0, unsafe, log entry 3. -/
def resetZf : Trit := .zero

/-- The two instances of `CJ_READING`: how a complex-condition jump uses its two operands (R152). -/
inductive CjReading where
  | threeWay
  | thenElse
deriving DecidableEq, Repr

/-- `CJ_READING`, decided `three_way` (R152, D10; log entry 11). -/
def cjReading : CjReading := .threeWay

/-- The two instances of `SMC`: whether a store into the following instruction is seen by its fetch or
refused (R51). -/
inductive Smc where
  | sequential
  | refuse
deriving DecidableEq, Repr

/-- `SMC`, default `sequential` (R51, D16; log entry 17). -/
def smc : Smc := .sequential

/-- `ZF_WRITERS`, the families that latch ZF: the ALU family only (R28, R135, D8; log entry 9). -/
def writesZf : Family → Bool
  | .mov => false
  | .alu => true
  | .jxx => false

end Sys2Proof.Config
end

