-- ==== Sys2Proof/Machine/Arith.lean ====
section
/-! DEFINITION. The arithmetic of trytes: their values, the Adder, negation, the address successor, and the
recommended instances of the two open ALU functions (00_scope.md section 2, 42_alu.md section 1). -/

namespace Sys2Proof.Machine

/-- `val(t) = Σ val(t[i]) · 3^i`, from −364 to +364 (R6, D1; log entry 1). -/
def val (t : Tryte) : Int :=
  t.t5.val * 243 + t.t4.val * 81 + t.t3.val * 27 + t.t2.val * 9 + t.t1.val * 3 + t.t0.val

/-- The trit of a base-3 digit shifted by one: 0 is λ, 1 is 0, 2 is 1. -/
def tritOfDigit (d : Nat) : Trit :=
  match d with
  | 0 => .lam
  | 1 => .zero
  | _ => .one

/-- The tryte whose value is `n − 364`, for `n` from 0 to 728. -/
def tryteOfIndex (n : Nat) : Tryte :=
  ⟨tritOfDigit (n / 243 % 3), tritOfDigit (n / 81 % 3), tritOfDigit (n / 27 % 3),
   tritOfDigit (n / 9 % 3), tritOfDigit (n / 3 % 3), tritOfDigit (n % 3)⟩

/-- `tryte(n)`: the unique tryte whose value is `n` modulo 729 (R6). -/
def tryte (n : Int) : Tryte := tryteOfIndex ((n + 364) % 729).toNat

/-- The place of an address in the order of R45, counted from 0 at `λλλλλλ`: the key of its cell in RAM. -/
def addrIndex (a : Tryte) : Nat := (val a + 364).toNat

/-- `succ(addr, k)`: the address `k` cells on, wrapping from `111111` to `λλλλλλ` (R45, D2; log entry 2). -/
def succ (a : Tryte) (k : Nat) : Tryte := tryte (val a + k)

/-- The Adder, `p +t q`: six trits, wrapping modulo 729, no carry and no flag of its own (R131, D4; log entry 8). -/
def addT (p q : Tryte) : Tryte := tryte (val p + val q)

/-- A trit-wise function of one tryte. -/
def mapTrits (f : Trit → Trit) (p : Tryte) : Tryte :=
  ⟨f p.t5, f p.t4, f p.t3, f p.t2, f p.t1, f p.t0⟩

/-- A trit-wise function of two trytes. -/
def zipTrits (f : Trit → Trit → Trit) (p q : Tryte) : Tryte :=
  ⟨f p.t5 q.t5, f p.t4 q.t4, f p.t3 q.t3, f p.t2 q.t2, f p.t1 q.t1, f p.t0 q.t0⟩

/-- `neg(q)`: every trit negated (R132). -/
def negT (q : Tryte) : Tryte := mapTrits Trit.neg q

/-- The Adder with its second operand negated, which is what `sub` computes (R132). -/
def subT (p q : Tryte) : Tryte := addT p (negT q)

/-- The operation NANY of `alu-act = 0`: the open parameter (R133; log entry 6). -/
def nany (p q : Tryte) : Tryte := Config.nany p q

/-- The operation Logical MUL of `alu-act = 1`: the open parameter (R134; log entry 7). -/
def lmul (p q : Tryte) : Tryte := Config.lmul p q

/-- One trit of `NANY*`: the table of R133. -/
def nanyTrit (p q : Trit) : Trit :=
  match p, q with
  | .lam, .lam => .one
  | .lam, .zero => .one
  | .lam, .one => .zero
  | .zero, .lam => .one
  | .zero, .zero => .zero
  | .zero, .one => .lam
  | .one, .lam => .zero
  | .one, .zero => .lam
  | .one, .one => .lam

/-- `NANY*`, the recommended instance of NANY (R133, D5). The machine does not use it: `nany` is open. -/
def nanyStar (p q : Tryte) : Tryte := zipTrits nanyTrit p q

/-- One trit of `LMUL*`: the table of R134. -/
def lmulTrit (p q : Trit) : Trit :=
  match p, q with
  | .lam, .lam => .one
  | .lam, .zero => .zero
  | .lam, .one => .lam
  | .zero, _ => .zero
  | .one, .lam => .lam
  | .one, .zero => .zero
  | .one, .one => .one

/-- `LMUL*`, the recommended instance of LMUL (R134, D6). The machine does not use it: `lmul` is open. -/
def lmulStar (p q : Tryte) : Tryte := zipTrits lmulTrit p q

end Sys2Proof.Machine
end

