-- ==== Sys2Proof/Machine/State.lean ====
section
/-! DEFINITION. The state of CPU T-4 (10_state.md), its reset, and the ways a step can stop. -/

namespace Sys2Proof.Machine

/-- RAM (R30, R40): pairs of an address index and the tryte stored there. The index of an address is its
value plus 364, so that 0 is the lowest address `λλλλλλ` and 728 the highest `111111`; the cell is a tryte
because the tryte is the addressable unit (R41; log entry 25). A cell that is not listed has been written neither
by the launch image nor by the program, and has no value (R33, U13; log entry 15). -/
abbrev Memory := List (Nat × Tryte)

/-- The canonical form of RAM: indices strictly rising, each an address of the machine. Unlisted cells have no
value, so no entry can repeat what an unlisted cell reads as. -/
abbrev Memory.wf (m : Memory) : Prop :=
  (m.map Prod.fst).Pairwise (· < ·) ∧ ∀ k ∈ m.map Prod.fst, k < 729

/-- The architectural state: the tuple at the head of 10_state.md. -/
structure State where
  /-- RZ, an ordinary register (R20-R22). -/
  rz : Tryte
  /-- R0 (R20, R21). -/
  r0 : Tryte
  /-- R1 (R20, R21). -/
  r1 : Tryte
  /-- The instruction counter, the address of the next opcode (R25, R26). -/
  pc : Tryte
  /-- ZF, the one-trit jump flag (R28). -/
  zf : Trit
  /-- The unified RAM (R30). -/
  ram : Memory
  /-- The run is over (R31). -/
  halted : Bool
deriving DecidableEq, Repr

/-- The machine right after reset (R33, R200): `pc = RESET_IC`, `halted` false, no cell of RAM written. The
launch image is loaded from outside (R202; log entry 22). What RZ, R0, R1 and ZF hold is the model's choice (log
entry 3), and so is `RESET_IC` (log entry 4). -/
def State.reset : State where
  rz := Config.resetReg
  r0 := Config.resetReg
  r1 := Config.resetReg
  pc := Config.resetIc
  zf := Config.resetZf
  ram := []
  halted := false

/-- Why a step stops for want of a value. -/
inductive Fault where
  /-- A fetch, or an operand read, of the RAM cell at `addr`, which neither the launch image nor the program
  has written: its content is unspecified (R33, R202, U13; log entry 15). Raised by `readThen`, by `fetch` and by
  the data path. Safe: the machine goes on with some tryte. -/
  | unwrittenCell (addr : Tryte)
deriving DecidableEq, Repr

/-- Why a step has no meaning: the spec's closed list of refusals (R181), and the package's own mark for an
instruction without a meaning. -/
inductive Refusal where
  /-- An instruction whose arm of `exec` has no meaning yet, by its mnemonic. No arm raises it. Safe. -/
  | notModelled (mnemonic : String)
  /-- The tryte at `pc` is not one of the 119 defined opcodes (R71, R181). Raised by `fetch` and by the data
  path. Safe: the source does not say what the hardware does. -/
  | undefinedOpcode (op : Tryte)
  /-- The data path was given a `reg-act` or `ram-act` of λ, "fill (forbidden)" (R113, R181). Raised by the
  data path's λ arms only, which no opcode reaches. Safe. -/
  | fillForbidden
  /-- A store into one of the three cells at the start of the following instruction, under the option
  `SMC = refuse` only (R51, R181). Raised by `storeNext`. Safe. -/
  | storeIntoNextInstruction
deriving DecidableEq, Repr

/-- What a step answers. -/
abbrev Result := Host.Outcome State Fault Refusal

end Sys2Proof.Machine
end

