-- ==== Sys2Proof/Machine/Ops.lean ====
section
/-! DEFINITION. The named operations over registers, RAM and the instruction counter, which every meaning goes
through. CPU T-4 takes no exception and returns from none (60_exceptions.md rules R180, R183, R185), so there is no
such operation here. -/

namespace Sys2Proof.Machine

/-- `x[r]`: read a register (R20). -/
def State.reg (s : State) (r : Reg) : Tryte :=
  match r with
  | .rz => s.rz
  | .r0 => s.r0
  | .r1 => s.r1

/-- `x[r] <- v`: write a register; no register is hardwired (R20, R22; log entry 19). -/
def State.setReg (s : State) (r : Reg) (v : Tryte) : State :=
  match r with
  | .rz => { s with rz := v }
  | .r0 => { s with r0 := v }
  | .r1 => { s with r1 := v }

/-- `pc <- v`. -/
def State.setPc (s : State) (v : Tryte) : State := { s with pc := v }

/-- `ZF <- t`. -/
def State.setZf (s : State) (t : Trit) : State := { s with zf := t }

/-- `halted <- true` (R31). -/
def State.halt (s : State) : State := { s with halted := true }

/-- The tryte listed at an index, if one is. -/
def Memory.lookup (m : Memory) (k : Nat) : Option Tryte :=
  match m with
  | [] => none
  | (k', v) :: rest => if k = k' then some v else Memory.lookup rest k

/-- List a tryte at an index, in place of what was listed there, keeping the indices rising. -/
def Memory.insert (m : Memory) (k : Nat) (v : Tryte) : Memory :=
  match m with
  | [] => [(k, v)]
  | (k', v') :: rest =>
    if k < k' then (k, v) :: (k', v') :: rest
    else if k = k' then (k, v) :: rest
    else (k', v') :: Memory.insert rest k v

/-- `MemRead(addr, 1)` (R42): every one of the 729 addresses is RAM; `none` where nothing has written the cell
(U13; log entry 15). -/
def State.readCell (s : State) (addr : Tryte) : Option Tryte := Memory.lookup s.ram (addrIndex addr)

/-- `MemWrite(addr, 1, v)`: the cell at `addr` becomes `v`, every other cell stays (R42). -/
def State.writeCell (s : State) (addr v : Tryte) : State :=
  { s with ram := Memory.insert s.ram (addrIndex addr) v }

/-- Go on with the tryte at `addr`; a cell without a value stops the step (log entry 15). -/
def readThen (addr : Tryte) (s : State) (k : Tryte → Result) : Result :=
  match s.readCell addr with
  | some v => k v
  | none => .fault (.unwrittenCell addr)

/-- `pc <- succ(pc, len)`: on to the next sequential instruction (R27, D3; log entry 2). -/
def State.advance (s : State) (len : Nat) : State := s.setPc (succ s.pc len)

/-- Under the option `SMC = refuse`, a store to one of the three cells from the start of the following
instruction, `succ(next, 0..2)`, is refused (R51). -/
def smcRefuses (smc : Config.Smc) (addr next : Tryte) : Bool :=
  match smc with
  | .sequential => false
  | .refuse => addr == next || addr == succ next 1 || addr == succ next 2

/-- Store `v` at `addr` and go on after an instruction of `len` trytes. Under the default `SMC = sequential`
the store is seen by every later fetch (R51; log entry 17). -/
def storeNext (smc : Config.Smc) (addr v : Tryte) (len : Nat) (s : State) : Result :=
  if smcRefuses smc addr (succ s.pc len) then .refused .storeIntoNextInstruction
  else .next ((s.writeCell addr v).advance len)

end Sys2Proof.Machine
end

