-- ==== Sys2Proof/Machine/Flags.lean ====
section
/-! DEFINITION. The flag ZF: its one computation, who latches it, and its tests (10_state.md rule R28, 42_alu.md rule
R135, 40_datapath_and_decoder.md rule R83). -/

namespace Sys2Proof.Machine

/-- `sign(a)`: λ below zero, 0 at zero, 1 above (00_scope.md section 2.1). -/
def sign (a : Tryte) : Trit :=
  if val a < 0 then .lam else if val a = 0 then .zero else .one

/-- The most significant non-zero trit of a tryte, or 0 if there is none: K2 says it equals `sign`. -/
def leadingTrit (a : Tryte) : Trit :=
  if a.t5 ≠ .zero then a.t5 else if a.t4 ≠ .zero then a.t4 else if a.t3 ≠ .zero then a.t3
  else if a.t2 ≠ .zero then a.t2 else if a.t1 ≠ .zero then a.t1 else a.t0

/-- `ZF <- sign(r)`, `r` the tryte the ALU produced, if the family is one of `ZF_WRITERS` (R28, R135, D8; log
entry 9). -/
def State.latchZf (s : State) (f : Family) (r : Tryte) : State :=
  if Config.writesZf f then s.setZf (sign r) else s

/-- The test of `jmp-con`: ZF < 0, ZF = 0 or ZF > 0, which holds exactly when ZF equals the trit (R83). -/
def State.zfIs (s : State) (con : Trit) : Bool := s.zf == con

end Sys2Proof.Machine
end

