-- ==== Sys2Proof/Machine/Operands.lean ====
section
/-! DEFINITION. The operand forms (30_encoding.md rule R69): a register, a cell at a direct address, an immediate;
and the two destinations an arrow points at. -/

namespace Sys2Proof.Machine

/-- A source operand, or a jump target (R69, R150). There is no other addressing mode (R47). -/
inductive Operand where
  /-- A register. -/
  | reg (r : Reg)
  /-- `[addr]`, the RAM cell at a direct address. -/
  | cell (addr : Tryte)
  /-- An immediate tryte, taken verbatim (R68). -/
  | imm (v : Tryte)
deriving DecidableEq, Repr

/-- A destination (R69). -/
inductive Dest where
  | reg (u : Reg)
  | cell (addr : Tryte)
deriving DecidableEq, Repr

/-- Go on with the operand's value in the state before the instruction (R7). -/
def operandThen (o : Operand) (s : State) (k : Tryte → Result) : Result :=
  match o with
  | .reg r => k (s.reg r)
  | .cell addr => readThen addr s k
  | .imm v => k v

/-- The value of an operand, where it has one. -/
def State.operand (s : State) (o : Operand) : Option Tryte :=
  match o with
  | .reg r => some (s.reg r)
  | .cell addr => s.readCell addr
  | .imm v => some v

/-- Give the destination its value and go on after an instruction of `len` trytes. -/
def writeNext (smc : Config.Smc) (d : Dest) (v : Tryte) (len : Nat) (s : State) : Result :=
  match d with
  | .reg u => .next ((s.setReg u v).advance len)
  | .cell addr => storeNext smc addr v len s

end Sys2Proof.Machine
end

