-- ==== Sys2Proof/Machine/Alu.lean ====
section
/-! DEFINITION. The ALU family (42_alu.md rules R130-R147). The three operand forms are written once (R130), over
any function of two trytes; an instruction is a form with its operation. -/

namespace Sys2Proof.Machine

/-- Read both operands, apply `op`, latch ZF, give the destination the result, and go on after `len` trytes
(R130, R135). -/
def aluOperands (op : Tryte → Tryte → Tryte) (p q : Operand) (d : Dest) (len : Nat) (s : State) : Result :=
  operandThen p s fun x => operandThen q s fun y =>
    writeNext Config.smc d (op x y) len (s.latchZf .alu (op x y))

/-- The form `alu a, c → [i1]` (T4 = λ, R130). -/
def aluRegRegMem (op : Tryte → Tryte → Tryte) (a c : Reg) (i1 : Tryte) (s : State) : Result :=
  aluOperands op (.reg a) (.reg c) (.cell i1) 2 s

/-- The form `alu [i1], c → u` (T4 = 0, R130). -/
def aluMemRegReg (op : Tryte → Tryte → Tryte) (i1 : Tryte) (c u : Reg) (s : State) : Result :=
  aluOperands op (.cell i1) (.reg c) (.reg u) 2 s

/-- The form `alu [i1], i2 → u` (T4 = 1, R130). -/
def aluMemImmReg (op : Tryte → Tryte → Tryte) (i1 i2 : Tryte) (u : Reg) (s : State) : Result :=
  aluOperands op (.cell i1) (.imm i2) (.reg u) 3 s

/-- `add a, c → [i1]` (R136). -/
def execAddRegRegMem (a c : Reg) (i1 : Tryte) (s : State) : Result := aluRegRegMem addT a c i1 s

/-- `add [i1], c → u` (R137). -/
def execAddMemRegReg (i1 : Tryte) (c u : Reg) (s : State) : Result := aluMemRegReg addT i1 c u s

/-- `add [i1], i2 → u` (R138). -/
def execAddMemImmReg (i1 i2 : Tryte) (u : Reg) (s : State) : Result := aluMemImmReg addT i1 i2 u s

/-- `sub a, c → [i1]`: `a` is the minuend (R139). -/
def execSubRegRegMem (a c : Reg) (i1 : Tryte) (s : State) : Result := aluRegRegMem subT a c i1 s

/-- `sub [i1], c → u`: the cell is the minuend (R140). -/
def execSubMemRegReg (i1 : Tryte) (c u : Reg) (s : State) : Result := aluMemRegReg subT i1 c u s

/-- `sub [i1], i2 → u`: the cell is the minuend (R141). -/
def execSubMemImmReg (i1 i2 : Tryte) (u : Reg) (s : State) : Result := aluMemImmReg subT i1 i2 u s

/-- `nand a, c → [i1]` (R142). -/
def execNandRegRegMem (a c : Reg) (i1 : Tryte) (s : State) : Result := aluRegRegMem nany a c i1 s

/-- `nand [i1], c → u` (R143). -/
def execNandMemRegReg (i1 : Tryte) (c u : Reg) (s : State) : Result := aluMemRegReg nany i1 c u s

/-- `nand [i1], i2 → u` (R144). -/
def execNandMemImmReg (i1 i2 : Tryte) (u : Reg) (s : State) : Result := aluMemImmReg nany i1 i2 u s

/-- `msk a, c → [i1]` (R145). -/
def execMskRegRegMem (a c : Reg) (i1 : Tryte) (s : State) : Result := aluRegRegMem lmul a c i1 s

/-- `msk [i1], c → u` (R146). -/
def execMskMemRegReg (i1 : Tryte) (c u : Reg) (s : State) : Result := aluMemRegReg lmul i1 c u s

/-- `msk [i1], i2 → u` (R147). -/
def execMskMemImmReg (i1 i2 : Tryte) (u : Reg) (s : State) : Result := aluMemImmReg lmul i1 i2 u s

end Sys2Proof.Machine
end

