-- ==== Sys2Proof/Machine/CodeFlow.lean ====
section
/-! DEFINITION. The code-flow family (43_codeflow.md rules R150-R172). No instruction here writes a register, RAM
or ZF. -/

namespace Sys2Proof.Machine

/-- `pc <- target`, an absolute address (R150). -/
def jumpTo (target : Operand) (s : State) : Result := operandThen target s fun v => .next (s.setPc v)

/-- A simple-condition jump, two trytes long: taken when ZF is `con`, else on to the next instruction; a target
that is not taken is not read (R151, D9; log entries 10, 20). -/
def simpleJump (con : Trit) (target : Operand) (s : State) : Result :=
  if s.zfIs con then jumpTo target s else .next (s.advance 2)

/-- The two ZF outcomes other than `e`, the lower one first (R152). -/
def otherOutcomes (e : Trit) : Trit × Trit :=
  match e with
  | .lam => (.zero, .one)
  | .zero => (.lam, .one)
  | .one => (.lam, .zero)

/-- Which of the two targets a complex-condition jump takes, or none for the next instruction, under each
reading; `e` is the excluded outcome, `jmp-con` (R152, D10; log entry 11). -/
def complexTarget (reading : Config.CjReading) (e zf : Trit) (a b : Operand) : Option Operand :=
  match reading with
  | .threeWay =>
    if zf = (otherOutcomes e).1 then some a else if zf = (otherOutcomes e).2 then some b else none
  | .thenElse => if zf = e then some b else some a

/-- A complex-condition jump, three trytes long: only the target that is taken is read (R152). -/
def complexJump (reading : Config.CjReading) (e : Trit) (a b : Operand) (s : State) : Result :=
  match complexTarget reading e s.zf a b with
  | some target => jumpTo target s
  | none => .next (s.advance 3)

/-- `jmp [i1]` (R153). -/
def execJmpMem (i1 : Tryte) (s : State) : Result := jumpTo (.cell i1) s

/-- `jmp i1` (R154). -/
def execJmpImm (i1 : Tryte) (s : State) : Result := jumpTo (.imm i1) s

/-- `jl [i1]` (R155). -/
def execJlMem (i1 : Tryte) (s : State) : Result := simpleJump .lam (.cell i1) s

/-- `jl i1` (R156). -/
def execJlImm (i1 : Tryte) (s : State) : Result := simpleJump .lam (.imm i1) s

/-- `je [i1]` (R157). -/
def execJeMem (i1 : Tryte) (s : State) : Result := simpleJump .zero (.cell i1) s

/-- `je i1` (R158). -/
def execJeImm (i1 : Tryte) (s : State) : Result := simpleJump .zero (.imm i1) s

/-- `jg [i1]` (R159). -/
def execJgMem (i1 : Tryte) (s : State) : Result := simpleJump .one (.cell i1) s

/-- `jg i1` (R160). -/
def execJgImm (i1 : Tryte) (s : State) : Result := simpleJump .one (.imm i1) s

/-- `jle [i1], i2`, also `jng` (R161). -/
def execJleMemImm (i1 i2 : Tryte) (s : State) : Result :=
  complexJump Config.cjReading .one (.cell i1) (.imm i2) s

/-- `jle i1, i2`, also `jng` (R162). -/
def execJleImmImm (i1 i2 : Tryte) (s : State) : Result :=
  complexJump Config.cjReading .one (.imm i1) (.imm i2) s

/-- `jle i2, [i1]`, also `jng` (R163). -/
def execJleImmMem (i1 i2 : Tryte) (s : State) : Result :=
  complexJump Config.cjReading .one (.imm i2) (.cell i1) s

/-- `jlg [i1], i2`, also `jne` (R164). -/
def execJlgMemImm (i1 i2 : Tryte) (s : State) : Result :=
  complexJump Config.cjReading .zero (.cell i1) (.imm i2) s

/-- `jlg i1, i2`, also `jne` (R165). -/
def execJlgImmImm (i1 i2 : Tryte) (s : State) : Result :=
  complexJump Config.cjReading .zero (.imm i1) (.imm i2) s

/-- `jlg i2, [i1]`, also `jne` (R166). -/
def execJlgImmMem (i1 i2 : Tryte) (s : State) : Result :=
  complexJump Config.cjReading .zero (.imm i2) (.cell i1) s

/-- `jeg [i1], i2`, also `jnl` (R167). -/
def execJegMemImm (i1 i2 : Tryte) (s : State) : Result :=
  complexJump Config.cjReading .lam (.cell i1) (.imm i2) s

/-- `jeg i1, i2`, also `jnl` (R168). -/
def execJegImmImm (i1 i2 : Tryte) (s : State) : Result :=
  complexJump Config.cjReading .lam (.imm i1) (.imm i2) s

/-- `jeg i2, [i1]`, also `jnl` (R169). -/
def execJegImmMem (i1 i2 : Tryte) (s : State) : Result :=
  complexJump Config.cjReading .lam (.imm i2) (.cell i1) s

/-- `finish`: `pc <- K_CONST`, and the run is over (R170, R171, D11; log entry 12). -/
def execFinish (s : State) : Result := .next (s.setPc Config.kConst).halt

/-- `reboot`: `pc <- K_CONST` and nothing else (R170, R172, R201, D12; log entry 13). -/
def execReboot (s : State) : Result := .next (s.setPc Config.kConst)

end Sys2Proof.Machine
end

