-- ==== Sys2Proof/Machine/Mov.lean ====
section
/-! DEFINITION. The MOV family (41_mov.md rules R120-R123). No MOV reads or writes ZF. -/

namespace Sys2Proof.Machine

/-- Copy a source operand to a destination and go on after `len` trytes (41_mov.md). -/
def movOperand (src : Operand) (d : Dest) (len : Nat) (s : State) : Result :=
  operandThen src s fun v => writeNext Config.smc d v len s

/-- `mov a → u` (R120). -/
def execMovRegReg (a u : Reg) (s : State) : Result := movOperand (.reg a) (.reg u) 1 s

/-- `mov [i1] → u` (R121). -/
def execMovMemReg (i1 : Tryte) (u : Reg) (s : State) : Result := movOperand (.cell i1) (.reg u) 2 s

/-- `mov a → [i1]` (R122). -/
def execMovRegMem (a : Reg) (i1 : Tryte) (s : State) : Result := movOperand (.reg a) (.cell i1) 2 s

/-- `mov i2 → [i1]` (R123). -/
def execMovImmMem (i1 i2 : Tryte) (s : State) : Result := movOperand (.imm i2) (.cell i1) 3 s

end Sys2Proof.Machine
end

