-- ==== Sys2Proof/Machine/Dispatch.lean ====
section
/-! DEFINITION. Which meaning each of the 35 instructions has (30_encoding.md rule R70). -/

namespace Sys2Proof.Machine

def exec (i : Instr) (s : State) : Host.Outcome State Fault Refusal :=
  match i with
  | .movRegReg a u => Sys2Proof.Machine.execMovRegReg a u s
  | .movMemReg i1 u => Sys2Proof.Machine.execMovMemReg i1 u s
  | .movRegMem a i1 => Sys2Proof.Machine.execMovRegMem a i1 s
  | .movImmMem i1 i2 => Sys2Proof.Machine.execMovImmMem i1 i2 s
  | .addRegRegMem a c i1 => Sys2Proof.Machine.execAddRegRegMem a c i1 s
  | .addMemRegReg i1 c u => Sys2Proof.Machine.execAddMemRegReg i1 c u s
  | .addMemImmReg i1 i2 u => Sys2Proof.Machine.execAddMemImmReg i1 i2 u s
  | .subRegRegMem a c i1 => Sys2Proof.Machine.execSubRegRegMem a c i1 s
  | .subMemRegReg i1 c u => Sys2Proof.Machine.execSubMemRegReg i1 c u s
  | .subMemImmReg i1 i2 u => Sys2Proof.Machine.execSubMemImmReg i1 i2 u s
  | .nandRegRegMem a c i1 => Sys2Proof.Machine.execNandRegRegMem a c i1 s
  | .nandMemRegReg i1 c u => Sys2Proof.Machine.execNandMemRegReg i1 c u s
  | .nandMemImmReg i1 i2 u => Sys2Proof.Machine.execNandMemImmReg i1 i2 u s
  | .mskRegRegMem a c i1 => Sys2Proof.Machine.execMskRegRegMem a c i1 s
  | .mskMemRegReg i1 c u => Sys2Proof.Machine.execMskMemRegReg i1 c u s
  | .mskMemImmReg i1 i2 u => Sys2Proof.Machine.execMskMemImmReg i1 i2 u s
  | .jmpMem i1 => Sys2Proof.Machine.execJmpMem i1 s
  | .jmpImm i1 => Sys2Proof.Machine.execJmpImm i1 s
  | .jlMem i1 => Sys2Proof.Machine.execJlMem i1 s
  | .jlImm i1 => Sys2Proof.Machine.execJlImm i1 s
  | .jeMem i1 => Sys2Proof.Machine.execJeMem i1 s
  | .jeImm i1 => Sys2Proof.Machine.execJeImm i1 s
  | .jgMem i1 => Sys2Proof.Machine.execJgMem i1 s
  | .jgImm i1 => Sys2Proof.Machine.execJgImm i1 s
  | .jleMemImm i1 i2 => Sys2Proof.Machine.execJleMemImm i1 i2 s
  | .jleImmImm i1 i2 => Sys2Proof.Machine.execJleImmImm i1 i2 s
  | .jleImmMem i1 i2 => Sys2Proof.Machine.execJleImmMem i1 i2 s
  | .jlgMemImm i1 i2 => Sys2Proof.Machine.execJlgMemImm i1 i2 s
  | .jlgImmImm i1 i2 => Sys2Proof.Machine.execJlgImmImm i1 i2 s
  | .jlgImmMem i1 i2 => Sys2Proof.Machine.execJlgImmMem i1 i2 s
  | .jegMemImm i1 i2 => Sys2Proof.Machine.execJegMemImm i1 i2 s
  | .jegImmImm i1 i2 => Sys2Proof.Machine.execJegImmImm i1 i2 s
  | .jegImmMem i1 i2 => Sys2Proof.Machine.execJegImmMem i1 i2 s
  | .finish => Sys2Proof.Machine.execFinish s
  | .reboot => Sys2Proof.Machine.execReboot s

end Sys2Proof.Machine
end

