-- ==== Sys2Proof/WellFormed.lean ====
section
/-! DEFINITION. Which opcode trytes and which instruction words are well formed: rule R71's predicate, family by
family, written from its own words and not from the decoder. -/

namespace Sys2Proof

/-- R71, T5 = 1: the 16 defined MOV opcodes. T2 is 0 in all of them (R73). -/
def definedMov (op : Tryte) : Bool :=
  op.t5 == .one && op.t2 == .zero &&
    ((op.t4 == .lam && op.t3 == .lam) ||
     (op.t4 == .zero && op.t3 == .lam && op.t1 == .zero) ||
     (op.t4 == .lam && op.t3 == .one && op.t0 == .zero) ||
     (op.t4 == .one && op.t3 == .one && op.t1 == .zero && op.t0 == .zero))

/-- R65, R71: the four (T3, T2) pairs that are operations: (λ, 0), (λ, λ), (0, 0), (1, 0). -/
def definedAluOp (t3 t2 : Trit) : Bool :=
  (t3 == .lam && (t2 == .zero || t2 == .lam)) ||
    (t3 == .zero && t2 == .zero) || (t3 == .one && t2 == .zero)

/-- R71, T5 = 0: the 84 defined ALU opcodes. -/
def definedAlu (op : Tryte) : Bool :=
  op.t5 == .zero && definedAluOp op.t3 op.t2 &&
    (op.t4 == .lam || op.t4 == .zero || (op.t4 == .one && op.t1 == .zero))

/-- R71, T5 = λ: exactly the nineteen listed opcodes. -/
def jxxOpcodes : List Tryte :=
  [⟨.lam, .zero, .lam, .zero, .zero, .zero⟩, ⟨.lam, .zero, .one, .zero, .zero, .lam⟩,
   ⟨.lam, .zero, .lam, .one, .lam, .zero⟩, ⟨.lam, .zero, .one, .one, .lam, .lam⟩,
   ⟨.lam, .zero, .lam, .one, .zero, .zero⟩, ⟨.lam, .zero, .one, .one, .zero, .lam⟩,
   ⟨.lam, .zero, .lam, .one, .one, .zero⟩, ⟨.lam, .zero, .one, .one, .one, .lam⟩,
   ⟨.lam, .zero, .zero, .lam, .one, .one⟩, ⟨.lam, .zero, .one, .lam, .one, .zero⟩,
   ⟨.lam, .zero, .lam, .lam, .one, .one⟩, ⟨.lam, .zero, .zero, .lam, .zero, .one⟩,
   ⟨.lam, .zero, .one, .lam, .zero, .zero⟩, ⟨.lam, .zero, .lam, .lam, .zero, .one⟩,
   ⟨.lam, .zero, .zero, .lam, .lam, .one⟩, ⟨.lam, .zero, .one, .lam, .lam, .zero⟩,
   ⟨.lam, .zero, .lam, .lam, .lam, .one⟩, ⟨.lam, .one, .one, .zero, .zero, .zero⟩,
   ⟨.lam, .lam, .one, .zero, .zero, .zero⟩]

/-- R71, T5 = λ. -/
def definedJxx (op : Tryte) : Bool := jxxOpcodes.contains op

/-- R71: the opcode tryte is one of the 119 defined ones. -/
def definedOpcode (op : Tryte) : Bool := definedMov op || definedAlu op || definedJxx op

/-- R62's own list of lengths: 1 for `mov a → u`, `finish` and `reboot`; 3 for `mov i2 → [i1]`, the
`alu [i1], i2 → u` forms and the complex-condition jumps; 2 for every other defined opcode. -/
def opcodeLength (op : Tryte) : Nat :=
  match op.t5, op.t4 with
  | .one, .lam => if op.t3 == .lam then 1 else 2
  | .one, .zero => 2
  | .one, .one => 3
  | .zero, .one => 3
  | .zero, _ => 2
  | .lam, .zero => if op.t2 == .lam then 3 else 2
  | .lam, _ => 1

/-- The trytes are the words of exactly one instruction: a defined opcode and as many immediates as its
length asks for (R61, R62, R71). -/
def wellFormedWords (ws : List Tryte) : Bool :=
  match ws with
  | [] => false
  | op :: imms => definedOpcode op && imms.length + 1 == opcodeLength op

/-- Every term of `Instr` is an instruction: a register field may hold any register, including the same one
twice (R67, R72, D20; log entry 18), and an immediate any tryte (R68). So nothing is checked on a term; what
can be ill formed are an instruction's words. -/
def Instr.wellFormed (_ : Instr) : Bool := true

end Sys2Proof
end

