-- ==== Sys2Proof/Decode.lean ====
section
/-! DEFINITION. Decoding the trytes of an instruction, total, rejecting by name, and after it the encoder. Both are
written from the opcode map (30_encoding.md rule R70), row by row. At the end, how the host's binary words
spell trytes. -/

namespace Sys2Proof

/-- What an opcode tryte says of its instruction before the immediates are read: a whole instruction (format
L1), or one that still wants i1 (L2), or i1 and i2 (L3) (R61). -/
inductive Template where
  | l1 (i : Instr)
  | l2 (mk : Tryte → Instr)
  | l3 (mk : Tryte → Tryte → Instr)

/-- The number of trytes of the format (R61). -/
def Template.length : Template → Nat
  | .l1 _ => 1
  | .l2 _ => 2
  | .l3 _ => 3

/-- The opcode map (R70): the pattern of each of the 35 rows, T5 first. `none` for the 610 opcode trytes that
no row covers (R71, D14; log entry 14). -/
def decodeOpcode (op : Tryte) : Option Template :=
  match op with
  -- T5 = 1, MOV (R64)
  | ⟨.one, .lam, .lam, .zero, a, u⟩ => some (.l1 (.movRegReg (.ofTrit a) (.ofTrit u)))
  | ⟨.one, .zero, .lam, .zero, .zero, u⟩ => some (.l2 fun i1 => .movMemReg i1 (.ofTrit u))
  | ⟨.one, .lam, .one, .zero, a, .zero⟩ => some (.l2 fun i1 => .movRegMem (.ofTrit a) i1)
  | ⟨.one, .one, .one, .zero, .zero, .zero⟩ => some (.l3 fun i1 i2 => .movImmMem i1 i2)
  -- T5 = 0, ALU (R65)
  | ⟨.zero, .lam, .lam, .zero, c, a⟩ => some (.l2 fun i1 => .addRegRegMem (.ofTrit a) (.ofTrit c) i1)
  | ⟨.zero, .zero, .lam, .zero, c, u⟩ => some (.l2 fun i1 => .addMemRegReg i1 (.ofTrit c) (.ofTrit u))
  | ⟨.zero, .one, .lam, .zero, .zero, u⟩ => some (.l3 fun i1 i2 => .addMemImmReg i1 i2 (.ofTrit u))
  | ⟨.zero, .lam, .lam, .lam, c, a⟩ => some (.l2 fun i1 => .subRegRegMem (.ofTrit a) (.ofTrit c) i1)
  | ⟨.zero, .zero, .lam, .lam, c, u⟩ => some (.l2 fun i1 => .subMemRegReg i1 (.ofTrit c) (.ofTrit u))
  | ⟨.zero, .one, .lam, .lam, .zero, u⟩ => some (.l3 fun i1 i2 => .subMemImmReg i1 i2 (.ofTrit u))
  | ⟨.zero, .lam, .zero, .zero, c, a⟩ => some (.l2 fun i1 => .nandRegRegMem (.ofTrit a) (.ofTrit c) i1)
  | ⟨.zero, .zero, .zero, .zero, c, u⟩ => some (.l2 fun i1 => .nandMemRegReg i1 (.ofTrit c) (.ofTrit u))
  | ⟨.zero, .one, .zero, .zero, .zero, u⟩ => some (.l3 fun i1 i2 => .nandMemImmReg i1 i2 (.ofTrit u))
  | ⟨.zero, .lam, .one, .zero, c, a⟩ => some (.l2 fun i1 => .mskRegRegMem (.ofTrit a) (.ofTrit c) i1)
  | ⟨.zero, .zero, .one, .zero, c, u⟩ => some (.l2 fun i1 => .mskMemRegReg i1 (.ofTrit c) (.ofTrit u))
  | ⟨.zero, .one, .one, .zero, .zero, u⟩ => some (.l3 fun i1 i2 => .mskMemImmReg i1 i2 (.ofTrit u))
  -- T5 = λ, code flow (R66)
  | ⟨.lam, .zero, .lam, .zero, .zero, .zero⟩ => some (.l2 .jmpMem)
  | ⟨.lam, .zero, .one, .zero, .zero, .lam⟩ => some (.l2 .jmpImm)
  | ⟨.lam, .zero, .lam, .one, .lam, .zero⟩ => some (.l2 .jlMem)
  | ⟨.lam, .zero, .one, .one, .lam, .lam⟩ => some (.l2 .jlImm)
  | ⟨.lam, .zero, .lam, .one, .zero, .zero⟩ => some (.l2 .jeMem)
  | ⟨.lam, .zero, .one, .one, .zero, .lam⟩ => some (.l2 .jeImm)
  | ⟨.lam, .zero, .lam, .one, .one, .zero⟩ => some (.l2 .jgMem)
  | ⟨.lam, .zero, .one, .one, .one, .lam⟩ => some (.l2 .jgImm)
  | ⟨.lam, .zero, .zero, .lam, .one, .one⟩ => some (.l3 .jleMemImm)
  | ⟨.lam, .zero, .one, .lam, .one, .zero⟩ => some (.l3 .jleImmImm)
  | ⟨.lam, .zero, .lam, .lam, .one, .one⟩ => some (.l3 .jleImmMem)
  | ⟨.lam, .zero, .zero, .lam, .zero, .one⟩ => some (.l3 .jlgMemImm)
  | ⟨.lam, .zero, .one, .lam, .zero, .zero⟩ => some (.l3 .jlgImmImm)
  | ⟨.lam, .zero, .lam, .lam, .zero, .one⟩ => some (.l3 .jlgImmMem)
  | ⟨.lam, .zero, .zero, .lam, .lam, .one⟩ => some (.l3 .jegMemImm)
  | ⟨.lam, .zero, .one, .lam, .lam, .zero⟩ => some (.l3 .jegImmImm)
  | ⟨.lam, .zero, .lam, .lam, .lam, .one⟩ => some (.l3 .jegImmMem)
  | ⟨.lam, .one, .one, .zero, .zero, .zero⟩ => some (.l1 .finish)
  | ⟨.lam, .lam, .one, .zero, .zero, .zero⟩ => some (.l1 .reboot)
  | _ => none

/-- Why trytes are not an instruction. -/
inductive DecodeError where
  /-- There is no tryte at all. -/
  | noOpcode
  /-- The first tryte is none of the 119 defined opcodes (R71). -/
  | undefinedOpcode (op : Tryte)
  /-- The opcode is defined, but fewer immediates follow than its format has (R61). -/
  | missingImmediate (op : Tryte)
deriving DecidableEq, Repr

/-- The instruction at the head of a list of trytes, opcode first, then i1, then i2 (R61, D2; log entry 2), and
the trytes after it. -/
def decode (ws : List Tryte) : Except DecodeError (Instr × List Tryte) :=
  match ws with
  | [] => .error .noOpcode
  | op :: rest =>
    match decodeOpcode op, rest with
    | none, _ => .error (.undefinedOpcode op)
    | some (.l1 i), rest => .ok (i, rest)
    | some (.l2 mk), i1 :: rest => .ok (mk i1, rest)
    | some (.l3 mk), i1 :: i2 :: rest => .ok (mk i1 i2, rest)
    | some _, _ => .error (.missingImmediate op)

/-- The trytes of an instruction (R61, R70): opcode, i1, i2. In `alu a, c → [i1]` the register `c` stands at T1
and `a` at T0. -/
def encode (i : Instr) : List Tryte :=
  match i with
  | .movRegReg a u => [⟨.one, .lam, .lam, .zero, a.trit, u.trit⟩]
  | .movMemReg i1 u => [⟨.one, .zero, .lam, .zero, .zero, u.trit⟩, i1]
  | .movRegMem a i1 => [⟨.one, .lam, .one, .zero, a.trit, .zero⟩, i1]
  | .movImmMem i1 i2 => [⟨.one, .one, .one, .zero, .zero, .zero⟩, i1, i2]
  | .addRegRegMem a c i1 => [⟨.zero, .lam, .lam, .zero, c.trit, a.trit⟩, i1]
  | .addMemRegReg i1 c u => [⟨.zero, .zero, .lam, .zero, c.trit, u.trit⟩, i1]
  | .addMemImmReg i1 i2 u => [⟨.zero, .one, .lam, .zero, .zero, u.trit⟩, i1, i2]
  | .subRegRegMem a c i1 => [⟨.zero, .lam, .lam, .lam, c.trit, a.trit⟩, i1]
  | .subMemRegReg i1 c u => [⟨.zero, .zero, .lam, .lam, c.trit, u.trit⟩, i1]
  | .subMemImmReg i1 i2 u => [⟨.zero, .one, .lam, .lam, .zero, u.trit⟩, i1, i2]
  | .nandRegRegMem a c i1 => [⟨.zero, .lam, .zero, .zero, c.trit, a.trit⟩, i1]
  | .nandMemRegReg i1 c u => [⟨.zero, .zero, .zero, .zero, c.trit, u.trit⟩, i1]
  | .nandMemImmReg i1 i2 u => [⟨.zero, .one, .zero, .zero, .zero, u.trit⟩, i1, i2]
  | .mskRegRegMem a c i1 => [⟨.zero, .lam, .one, .zero, c.trit, a.trit⟩, i1]
  | .mskMemRegReg i1 c u => [⟨.zero, .zero, .one, .zero, c.trit, u.trit⟩, i1]
  | .mskMemImmReg i1 i2 u => [⟨.zero, .one, .one, .zero, .zero, u.trit⟩, i1, i2]
  | .jmpMem i1 => [⟨.lam, .zero, .lam, .zero, .zero, .zero⟩, i1]
  | .jmpImm i1 => [⟨.lam, .zero, .one, .zero, .zero, .lam⟩, i1]
  | .jlMem i1 => [⟨.lam, .zero, .lam, .one, .lam, .zero⟩, i1]
  | .jlImm i1 => [⟨.lam, .zero, .one, .one, .lam, .lam⟩, i1]
  | .jeMem i1 => [⟨.lam, .zero, .lam, .one, .zero, .zero⟩, i1]
  | .jeImm i1 => [⟨.lam, .zero, .one, .one, .zero, .lam⟩, i1]
  | .jgMem i1 => [⟨.lam, .zero, .lam, .one, .one, .zero⟩, i1]
  | .jgImm i1 => [⟨.lam, .zero, .one, .one, .one, .lam⟩, i1]
  | .jleMemImm i1 i2 => [⟨.lam, .zero, .zero, .lam, .one, .one⟩, i1, i2]
  | .jleImmImm i1 i2 => [⟨.lam, .zero, .one, .lam, .one, .zero⟩, i1, i2]
  | .jleImmMem i1 i2 => [⟨.lam, .zero, .lam, .lam, .one, .one⟩, i1, i2]
  | .jlgMemImm i1 i2 => [⟨.lam, .zero, .zero, .lam, .zero, .one⟩, i1, i2]
  | .jlgImmImm i1 i2 => [⟨.lam, .zero, .one, .lam, .zero, .zero⟩, i1, i2]
  | .jlgImmMem i1 i2 => [⟨.lam, .zero, .lam, .lam, .zero, .one⟩, i1, i2]
  | .jegMemImm i1 i2 => [⟨.lam, .zero, .zero, .lam, .lam, .one⟩, i1, i2]
  | .jegImmImm i1 i2 => [⟨.lam, .zero, .one, .lam, .lam, .zero⟩, i1, i2]
  | .jegImmMem i1 i2 => [⟨.lam, .zero, .lam, .lam, .lam, .one⟩, i1, i2]
  | .finish => [⟨.lam, .one, .one, .zero, .zero, .zero⟩]
  | .reboot => [⟨.lam, .lam, .one, .zero, .zero, .zero⟩]

/-- The opcode tryte of an instruction, the first of its words. -/
def opcodeOf (i : Instr) : Tryte := (encode i).headD Tryte.zeros

/-- The family an opcode's trit T5 selects (R63). -/
def opcodeFamily (op : Tryte) : Family :=
  match op.t5 with
  | .one => .mov
  | .zero => .alu
  | .lam => .jxx

/-- The family of an instruction (R63). -/
def familyOf (i : Instr) : Family := opcodeFamily (opcodeOf i)

/-! How a binary number spells trytes for the host's questions. The machine is ternary and the opcode table gives
no bits: this numbering is the model's own (DESIGN CHOICE, log entry 21). -/

/-- Two bits spell a trit as a two's-complement number: 0 is `0`, 1 is `1`, 3 is `λ`; 2 spells no trit. -/
def tritOfBits (n : Nat) : Option Trit :=
  match n % 4 with
  | 0 => some .zero
  | 1 => some .one
  | 3 => some .lam
  | _ => none

/-- Twelve bits spell a tryte: trit T0 in bits 1..0, …, trit T5 in bits 11..10. -/
def tryteOfBits (n : Nat) : Option Tryte :=
  match tritOfBits (n / 1024), tritOfBits (n / 256), tritOfBits (n / 64), tritOfBits (n / 16),
      tritOfBits (n / 4), tritOfBits n with
  | some t5, some t4, some t3, some t2, some t1, some t0 => some ⟨t5, t4, t3, t2, t1, t0⟩
  | _, _, _, _, _, _ => none

/-- The three trytes of the longest instruction, spelt by the low `nbits` bits of `w` and zeros above: the
opcode in bits 11..0, i1 in bits 23..12, i2 in bits 35..24. -/
def tableTrytes (nbits w : Nat) : Option (List Tryte) :=
  let v := w % 2 ^ nbits
  match tryteOfBits v, tryteOfBits (v / 4096), tryteOfBits (v / 16777216) with
  | some op, some i1, some i2 => some [op, i1, i2]
  | _, _, _ => none

/-- The instruction the decoder reads from the host's word. -/
def decodeTableWord (nbits w : Nat) : Option Instr :=
  match tableTrytes nbits w with
  | none => none
  | some ws =>
    match decode ws with
    | .ok (i, _) => some i
    | .error _ => none

end Sys2Proof
end

