-- ==== Sys2Proof/Machine/Fetch.lean ====
section
/-! DEFINITION. Fetching an instruction from RAM (30_encoding.md rules R61, R62; 20_memory.md rule R50), and storing one
where the next fetch finds it. -/

namespace Sys2Proof.Machine

/-- Read the tryte at `pc`; refuse an undefined opcode before anything else is read (R71, R181; log entry 14);
then read the immediates its format has, i1 and after it i2 (R61, R62; log entry 27), and go on with the
instruction. -/
def fetchThen (s : State) (k : Instr → Result) : Result :=
  readThen s.pc s fun op =>
    match decodeOpcode op with
    | none => .refused (.undefinedOpcode op)
    | some (.l1 i) => k i
    | some (.l2 mk) => readThen (succ s.pc 1) s fun i1 => k (mk i1)
    | some (.l3 mk) => readThen (succ s.pc 1) s fun i1 => readThen (succ s.pc 2) s fun i2 => k (mk i1 i2)

/-- The cells from `addr` on hold these trytes, opcode first (R45, R61). -/
def State.holdsAt (s : State) (addr : Tryte) (ws : List Tryte) : Bool :=
  match ws with
  | [] => true
  | w :: rest => s.readCell addr == some w && State.holdsAt s (succ addr 1) rest

/-- Store trytes in the cells from `addr` on. -/
def State.load (s : State) (addr : Tryte) (ws : List Tryte) : State :=
  match ws with
  | [] => s
  | w :: rest => State.load (s.writeCell addr w) (succ addr 1) rest

/-- `s` with the host's instruction word in the cells at `pc` (log entries 21, 22): the longest instruction's three
trytes, and the machine running, since a halted machine fetches nothing (R31). A word that spells no trytes
changes nothing. -/
def placeFetchWord (s : State) (nbits w : Nat) : State :=
  match tableTrytes nbits w with
  | some ws => { s.load s.pc ws with halted := false }
  | none => s

end Sys2Proof.Machine
end

