-- ==== Sys2Proof/Machine/Step.lean ====
section
/-! DEFINITION. One step of the machine (00_scope.md rule R7, 60_exceptions.md rule R181). -/

namespace Sys2Proof.Machine

/-- While `halted` is true the machine executes no instruction and no state changes (R31; log entry 12);
otherwise one instruction is fetched and executed entirely (R7). -/
def step (s : State) : Host.Outcome State Fault Refusal :=
  if s.halted then .next s else fetchThen s fun i => exec i s

/-- `s` with the host's instruction word stored where `step` fetches its next instruction (log entries 21, 22). -/
def State.withFetchWord (s : State) (nbits w : Nat) : State := placeFetchWord s nbits w

end Sys2Proof.Machine
end

