-- ==== Sys2Proof/Machine/DataPath.lean ====
section
/-! DEFINITION. The sixteen data path state variables, the Instruction Decoder, and the generic execution step they
imply (40_datapath_and_decoder.md). This is the spec's second description of the machine: `exec` does not use it
(the per-instruction rules do not need it), and that the two agree is a statement for the provers. -/

namespace Sys2Proof.Machine

/-- The sixteen variables, in the order of the source's table (R80-R95). They are no state: functions of the
opcode (R32). -/
structure Controls where
  insLen : Trit
  icSrc : Trit
  jmpTyp : Trit
  jmpCon : Trit
  regAct : Trit
  regSrc : Trit
  regAdr : Trit
  regCh1 : Trit
  regCh2 : Trit
  ramAct : Trit
  ramSrc : Trit
  ramAdr : Trit
  aluAct : Trit
  aluOp1 : Trit
  aluOp2 : Trit
  op2Mod : Trit
deriving DecidableEq, Repr

/-- `ins-len` (R96). -/
def insLen (op : Tryte) : Trit :=
  if (op.t5 = .one ∧ op.t4 = .lam ∧ op.t3 = .lam) ∨ (op.t5 = .lam ∧ op.t4 ≠ .zero) then .lam
  else if (op.t5 ≠ .lam ∧ op.t4 = .one) ∨ (op.t5 = .lam ∧ op.t2 = .lam) then .one
  else .zero

/-- `ic-src` (R97). -/
def icSrc (op : Tryte) : Trit := if op.t5 = .lam then op.t3 else .zero

/-- `jmp-typ` (R98). -/
def jmpTyp (op : Tryte) : Trit := if op.t5 = .lam then op.t2 else .zero

/-- `jmp-con` (R99). -/
def jmpCon (op : Tryte) : Trit := op.t1

/-- `reg-act` (R100). -/
def regAct (op : Tryte) : Trit :=
  if (op.t5 = .one ∧ op.t3 = .lam) ∨ (op.t5 = .zero ∧ op.t4 ≠ .lam) then .one else .zero

/-- `reg-src` (R101). -/
def regSrc (op : Tryte) : Trit :=
  if op.t5 = .one ∧ op.t4 = .zero then .lam
  else if op.t5 = .one ∧ op.t4 = .lam then .zero
  else .one

/-- `reg-adr` (R102). -/
def regAdr (op : Tryte) : Trit := op.t0

/-- `reg-ch1` (R103). -/
def regCh1 (op : Tryte) : Trit := op.t1

/-- `reg-ch2` (R104). -/
def regCh2 (op : Tryte) : Trit := op.t0

/-- `ram-act` (R105): the only function that refers to another variable. -/
def ramAct (op : Tryte) : Trit := if op.t5 ≠ .lam ∧ regAct op = .zero then .one else .zero

/-- `ram-src` (R106). -/
def ramSrc (op : Tryte) : Trit :=
  if op.t5 = .one ∧ op.t4 = .lam then .lam
  else if op.t5 = .one ∧ op.t4 = .one then .zero
  else .one

/-- `ram-adr` (R107): 1 always. -/
def ramAdr (_ : Tryte) : Trit := .one

/-- `alu-act` (R108). -/
def aluAct (op : Tryte) : Trit := if op.t5 = .zero then op.t3 else .zero

/-- `alu-op1` (R109). -/
def aluOp1 (op : Tryte) : Trit := if op.t5 = .zero ∧ op.t4 ≠ .lam then .lam else .zero

/-- `alu-op2` (R110). -/
def aluOp2 (op : Tryte) : Trit :=
  if op.t5 = .lam then op.t0 else if op.t5 = .zero ∧ op.t4 = .one then .one else .zero

/-- `op2-mod` (R111). -/
def op2Mod (op : Tryte) : Trit :=
  if op.t5 = .zero then op.t2 else if op.t5 = .lam ∧ op.t4 ≠ .zero then .one else .zero

/-- The Instruction Decoder, total on all 729 opcode trytes (R117). Where the source's instruction table prints
another value, these functions are right (C1, R115; log entry 26). -/
def controls (op : Tryte) : Controls where
  insLen := insLen op
  icSrc := icSrc op
  jmpTyp := jmpTyp op
  jmpCon := jmpCon op
  regAct := regAct op
  regSrc := regSrc op
  regAdr := regAdr op
  regCh1 := regCh1 op
  regCh2 := regCh2 op
  ramAct := ramAct op
  ramSrc := ramSrc op
  ramAdr := ramAdr op
  aluAct := aluAct op
  aluOp1 := aluOp1 op
  aluOp2 := aluOp2 op
  op2Mod := op2Mod op

/-- "λ – 1 tryte 0 – 2 trytes 1 – 3 trytes" (R80). -/
def lengthOf (insLen : Trit) : Nat := sel insLen 1 2 3

/-- Go on with the value of a data path line; the only line that can be without one is RAM output, whose address
is the first immediate (R107), and it counts only where a selector consumes it (R112). -/
def consume (line : Option Tryte) (i1 : Tryte) (k : Tryte → Result) : Result :=
  match line with
  | some v => k v
  | none => .fault (.unwrittenCell i1)

/-- The register file's write channel: `reg-act`, with `reg-src` and `reg-adr` (R84-R86); "fill" is refused
(R113). -/
def registerAction (c : Controls) (value : Option Tryte) (i1 : Tryte) (s : State) (k : State → Result) : Result :=
  sel c.regAct
    (.refused .fillForbidden)
    (k s)
    (consume value i1 fun v => k (s.setReg (.ofTrit c.regAdr) v))

/-- RAM's write: `ram-act`, with `ram-src`, at the first immediate (R89-R91, R107); "fill" is refused (R113). -/
def ramAction (c : Controls) (value : Option Tryte) (i1 next : Tryte) (s : State) (k : State → Result) : Result :=
  sel c.ramAct
    (.refused .fillForbidden)
    (k s)
    (consume value i1 fun v =>
      if smcRefuses Config.smc i1 next then .refused .storeIntoNextInstruction else k (s.writeCell i1 v))

/-- The two targets of a complex-condition jump: T3 (`ic-src`) and T0 (`alu-op2`) serve as form selectors (R152,
C3; log entry 23). -/
def complexForm (icSrc aluOp2 : Trit) (i1 i2 : Tryte) : Option (Operand × Operand) :=
  match icSrc, aluOp2 with
  | .zero, .one => some (.cell i1, .imm i2)
  | .one, .zero => some (.imm i1, .imm i2)
  | .lam, .one => some (.imm i2, .cell i1)
  | _, _ => none

/-- The instruction counter at the end of the instruction: `ic-src`, subject to `jmp-typ` and `jmp-con` (R81-R83),
with rule R152 where the variables do not determine it (R116). `zf` is ZF before the instruction (R7). -/
def counterAction (op : Tryte) (source : Option Tryte) (i1 i2 next : Tryte) (s : State) : Result :=
  let c := controls op
  sel c.jmpTyp
    (match complexForm c.icSrc c.aluOp2 i1 i2 with
      | none => .refused (.undefinedOpcode op)
      | some (a, b) =>
        match complexTarget Config.cjReading c.jmpCon s.zf a b with
        | none => .next (s.setPc next)
        | some target => jumpTo target s)
    (consume source i1 fun v => .next (s.setPc v))
    (if s.zf = c.jmpCon then consume source i1 fun v => .next (s.setPc v) else .next (s.setPc next))

/-- What opcode trit T4 says of the code-flow family beside the sixteen variables: 1 is `finish`, which halts (C4,
R116, R171; log entry 23). -/
def finishAction (op : Tryte) (r : Result) : Result :=
  match r with
  | .next t => if op.t5 = .lam ∧ op.t4 = .one then .next t.halt else .next t
  | r => r

/-- ZF takes the sign of the ALU's output in the ALU family (R112, R135); the variables do not mention it
(R116). -/
def flagAction (op : Tryte) (alu : Option Tryte) (i1 : Tryte) (s : State) (k : State → Result) : Result :=
  match opcodeFamily op with
  | .alu => consume alu i1 fun r => k (s.latchZf .alu r)
  | .mov => k s
  | .jxx => k s

/-- The generic step (R112), on the opcode and on the two trytes after it; an instruction that has fewer
immediates leaves the rest without effect. All reads use the state before the instruction (R7). An undefined
opcode is refused, although the Decoder gives it values (R117). -/
def dataPathStep (op i1 i2 : Tryte) (s : State) : Result :=
  if definedOpcode op then
    let c := controls op
    let next := succ s.pc (lengthOf c.insLen)
    let ch1 := s.reg (.ofTrit c.regCh1)
    let ch2 := s.reg (.ofTrit c.regCh2)
    let ramout := s.readCell i1
    let op1 := sel c.aluOp1 ramout (some ch2) (some s.pc)
    let op2r := sel c.aluOp2 i1 ch1 i2
    let op2 := sel c.op2Mod (negT op2r) op2r Config.kConst
    let alu := op1.map fun p => sel c.aluAct (addT p op2) (nany p op2) (lmul p op2)
    registerAction c (sel c.regSrc ramout (some ch1) alu) i1 s fun s1 =>
      ramAction c (sel c.ramSrc (some ch1) (some i2) alu) i1 next s1 fun s2 =>
        flagAction op alu i1 s2 fun s3 =>
          finishAction op (counterAction op (sel c.icSrc ramout (some next) (some op2)) i1 i2 next s3)
  else .refused (.undefinedOpcode op)

/-- The sixteen values the source's instruction table prints for each row (R118, 95_test_vectors.md section 1), the
don't-care cells as printed. -/
def sourceRow (i : Instr) : Controls :=
  match i with
  | .movRegReg a u =>
    ⟨.lam, .zero, .zero, .zero, .one, .zero, u.trit, a.trit, u.trit, .zero, .lam, .one, .zero, .zero, .zero, .zero⟩
  | .movMemReg _ u =>
    ⟨.zero, .zero, .zero, .zero, .one, .lam, u.trit, .zero, u.trit, .zero, .one, .one, .zero, .zero, .zero, .zero⟩
  | .movRegMem a _ =>
    ⟨.zero, .zero, .zero, .zero, .zero, .zero, .zero, a.trit, .zero, .one, .lam, .one, .zero, .zero, .zero, .zero⟩
  | .movImmMem _ _ =>
    ⟨.one, .zero, .zero, .zero, .zero, .one, .zero, .zero, .zero, .one, .zero, .one, .zero, .zero, .zero, .zero⟩
  | .addRegRegMem a c _ =>
    ⟨.zero, .zero, .zero, .zero, .zero, .one, a.trit, c.trit, a.trit, .one, .one, .one, .lam, .zero, .zero, .zero⟩
  | .addMemRegReg _ c u =>
    ⟨.zero, .zero, .zero, .zero, .one, .one, u.trit, c.trit, u.trit, .zero, .one, .one, .lam, .lam, .zero, .zero⟩
  | .addMemImmReg _ _ u =>
    ⟨.one, .zero, .zero, .zero, .one, .one, u.trit, .zero, u.trit, .zero, .one, .one, .lam, .lam, .one, .zero⟩
  | .subRegRegMem a c _ =>
    ⟨.zero, .zero, .zero, .zero, .zero, .one, a.trit, c.trit, a.trit, .one, .one, .one, .lam, .zero, .zero, .lam⟩
  | .subMemRegReg _ c u =>
    ⟨.zero, .zero, .zero, .zero, .one, .one, u.trit, c.trit, u.trit, .zero, .one, .one, .lam, .lam, .zero, .lam⟩
  | .subMemImmReg _ _ u =>
    ⟨.one, .zero, .zero, .zero, .one, .one, u.trit, .zero, u.trit, .zero, .one, .one, .lam, .lam, .one, .lam⟩
  | .nandRegRegMem a c _ =>
    ⟨.zero, .zero, .zero, .zero, .zero, .one, a.trit, c.trit, a.trit, .one, .one, .one, .zero, .zero, .zero, .zero⟩
  | .nandMemRegReg _ c u =>
    ⟨.zero, .zero, .zero, .zero, .one, .one, u.trit, c.trit, u.trit, .zero, .one, .one, .zero, .lam, .zero, .zero⟩
  | .nandMemImmReg _ _ u =>
    ⟨.one, .zero, .zero, .zero, .one, .one, u.trit, .zero, u.trit, .zero, .one, .one, .zero, .lam, .one, .zero⟩
  | .mskRegRegMem a c _ =>
    ⟨.zero, .zero, .zero, .zero, .zero, .one, a.trit, c.trit, a.trit, .one, .one, .one, .one, .zero, .zero, .zero⟩
  | .mskMemRegReg _ c u =>
    ⟨.zero, .zero, .zero, .zero, .one, .one, u.trit, c.trit, u.trit, .zero, .one, .one, .one, .lam, .zero, .zero⟩
  | .mskMemImmReg _ _ u =>
    ⟨.one, .zero, .zero, .zero, .one, .one, u.trit, .zero, u.trit, .zero, .one, .one, .one, .lam, .one, .zero⟩
  | .jmpMem _ =>
    ⟨.zero, .lam, .zero, .zero, .zero, .one, .zero, .zero, .zero, .zero, .one, .one, .zero, .zero, .zero, .zero⟩
  | .jmpImm _ =>
    ⟨.zero, .one, .zero, .zero, .zero, .one, .zero, .zero, .zero, .zero, .one, .one, .zero, .zero, .lam, .zero⟩
  | .jlMem _ =>
    ⟨.zero, .lam, .one, .lam, .zero, .one, .zero, .zero, .zero, .zero, .one, .one, .zero, .zero, .zero, .zero⟩
  | .jlImm _ =>
    ⟨.zero, .one, .one, .lam, .zero, .one, .zero, .zero, .zero, .zero, .one, .one, .zero, .zero, .lam, .zero⟩
  | .jeMem _ =>
    ⟨.zero, .lam, .one, .zero, .zero, .one, .zero, .zero, .zero, .zero, .one, .one, .zero, .zero, .zero, .zero⟩
  | .jeImm _ =>
    ⟨.zero, .one, .one, .zero, .zero, .one, .zero, .zero, .zero, .zero, .one, .one, .zero, .zero, .lam, .zero⟩
  | .jgMem _ =>
    ⟨.zero, .lam, .one, .one, .zero, .one, .zero, .zero, .zero, .zero, .one, .one, .zero, .zero, .zero, .zero⟩
  | .jgImm _ =>
    ⟨.zero, .one, .one, .one, .zero, .one, .zero, .zero, .zero, .zero, .one, .one, .zero, .zero, .lam, .zero⟩
  | .jleMemImm _ _ =>
    ⟨.one, .zero, .lam, .one, .zero, .one, .zero, .zero, .zero, .zero, .one, .one, .zero, .zero, .one, .zero⟩
  | .jleImmImm _ _ =>
    ⟨.one, .one, .lam, .one, .zero, .one, .zero, .zero, .zero, .zero, .one, .one, .zero, .zero, .zero, .zero⟩
  | .jleImmMem _ _ =>
    ⟨.one, .lam, .lam, .one, .zero, .one, .zero, .zero, .zero, .zero, .one, .one, .zero, .zero, .one, .zero⟩
  | .jlgMemImm _ _ =>
    ⟨.one, .zero, .lam, .zero, .zero, .one, .zero, .zero, .zero, .zero, .one, .one, .zero, .zero, .one, .zero⟩
  | .jlgImmImm _ _ =>
    ⟨.one, .one, .lam, .zero, .zero, .one, .zero, .zero, .zero, .zero, .one, .one, .zero, .zero, .zero, .zero⟩
  | .jlgImmMem _ _ =>
    ⟨.one, .lam, .lam, .zero, .zero, .one, .zero, .zero, .zero, .zero, .one, .one, .zero, .zero, .one, .zero⟩
  | .jegMemImm _ _ =>
    ⟨.one, .zero, .lam, .lam, .zero, .one, .zero, .zero, .zero, .zero, .one, .one, .zero, .zero, .one, .zero⟩
  | .jegImmImm _ _ =>
    ⟨.one, .one, .lam, .lam, .zero, .one, .zero, .zero, .zero, .zero, .one, .one, .zero, .zero, .zero, .zero⟩
  | .jegImmMem _ _ =>
    ⟨.one, .lam, .lam, .lam, .zero, .one, .zero, .zero, .zero, .zero, .one, .one, .zero, .zero, .one, .zero⟩
  | .finish =>
    ⟨.lam, .one, .zero, .zero, .zero, .one, .zero, .zero, .zero, .zero, .one, .one, .zero, .zero, .zero, .one⟩
  | .reboot =>
    ⟨.lam, .one, .zero, .zero, .zero, .one, .zero, .zero, .zero, .zero, .one, .one, .zero, .zero, .zero, .one⟩

end Sys2Proof.Machine
end

