-- ==== Sys2Proof/Safety.lean ====
section
/-! DEFINITION. The terms in which claims about the machine are made: what an instruction may touch, what a step
leaves unchanged, what the end of a run is, and when a run is safe. -/

namespace Sys2Proof.Safety

open Sys2Proof.Machine

/-! Which state an instruction touches: the tables of 10_state.md rule R24 and 20_memory.md rule R47. -/

/-- The register an instruction writes, if it writes one (R24). -/
def regWritten (i : Instr) : Option Reg :=
  match i with
  | .movRegReg _ u => some u
  | .movMemReg _ u => some u
  | .addMemRegReg _ _ u => some u
  | .addMemImmReg _ _ u => some u
  | .subMemRegReg _ _ u => some u
  | .subMemImmReg _ _ u => some u
  | .nandMemRegReg _ _ u => some u
  | .nandMemImmReg _ _ u => some u
  | .mskMemRegReg _ _ u => some u
  | .mskMemImmReg _ _ u => some u
  | .movRegMem .. | .movImmMem .. | .addRegRegMem .. | .subRegRegMem .. | .nandRegRegMem .. | .mskRegRegMem ..
  | .jmpMem .. | .jmpImm .. | .jlMem .. | .jlImm .. | .jeMem .. | .jeImm .. | .jgMem .. | .jgImm ..
  | .jleMemImm .. | .jleImmImm .. | .jleImmMem .. | .jlgMemImm .. | .jlgImmImm .. | .jlgImmMem ..
  | .jegMemImm .. | .jegImmImm .. | .jegImmMem .. | .finish | .reboot => none

/-- The registers an instruction reads (R24). -/
def regsRead (i : Instr) : List Reg :=
  match i with
  | .movRegReg a _ => [a]
  | .movRegMem a _ => [a]
  | .addRegRegMem a c _ => [a, c]
  | .subRegRegMem a c _ => [a, c]
  | .nandRegRegMem a c _ => [a, c]
  | .mskRegRegMem a c _ => [a, c]
  | .addMemRegReg _ c _ => [c]
  | .subMemRegReg _ c _ => [c]
  | .nandMemRegReg _ c _ => [c]
  | .mskMemRegReg _ c _ => [c]
  | .movMemReg .. | .movImmMem .. | .addMemImmReg .. | .subMemImmReg .. | .nandMemImmReg .. | .mskMemImmReg ..
  | .jmpMem .. | .jmpImm .. | .jlMem .. | .jlImm .. | .jeMem .. | .jeImm .. | .jgMem .. | .jgImm ..
  | .jleMemImm .. | .jleImmImm .. | .jleImmMem .. | .jlgMemImm .. | .jlgImmImm .. | .jlgImmMem ..
  | .jegMemImm .. | .jegImmImm .. | .jegImmMem .. | .finish | .reboot => []

/-- The address of the cell an instruction stores to, if it stores (R47). -/
def dataWrite (i : Instr) : Option Tryte :=
  match i with
  | .movRegMem _ i1 => some i1
  | .movImmMem i1 _ => some i1
  | .addRegRegMem _ _ i1 => some i1
  | .subRegRegMem _ _ i1 => some i1
  | .nandRegRegMem _ _ i1 => some i1
  | .mskRegRegMem _ _ i1 => some i1
  | .movRegReg .. | .movMemReg .. | .addMemRegReg .. | .addMemImmReg .. | .subMemRegReg .. | .subMemImmReg ..
  | .nandMemRegReg .. | .nandMemImmReg .. | .mskMemRegReg .. | .mskMemImmReg ..
  | .jmpMem .. | .jmpImm .. | .jlMem .. | .jlImm .. | .jeMem .. | .jeImm .. | .jgMem .. | .jgImm ..
  | .jleMemImm .. | .jleImmImm .. | .jleImmMem .. | .jlgMemImm .. | .jlgImmImm .. | .jlgImmMem ..
  | .jegMemImm .. | .jegImmImm .. | .jegImmMem .. | .finish | .reboot => none

/-- The address of the cell an instruction reads as data when ZF is `zf`, if it reads one: a conditional jump
reads `[i1]` only where that operand becomes the target (R47, R48, R152). -/
def dataRead (i : Instr) (zf : Trit) : Option Tryte :=
  match i with
  | .movMemReg i1 _ => some i1
  | .addMemRegReg i1 _ _ => some i1
  | .addMemImmReg i1 _ _ => some i1
  | .subMemRegReg i1 _ _ => some i1
  | .subMemImmReg i1 _ _ => some i1
  | .nandMemRegReg i1 _ _ => some i1
  | .nandMemImmReg i1 _ _ => some i1
  | .mskMemRegReg i1 _ _ => some i1
  | .mskMemImmReg i1 _ _ => some i1
  | .jmpMem i1 => some i1
  | .jlMem i1 => if zf = .lam then some i1 else none
  | .jeMem i1 => if zf = .zero then some i1 else none
  | .jgMem i1 => if zf = .one then some i1 else none
  | .jleMemImm i1 _ => if zf = .lam then some i1 else none
  | .jleImmMem i1 _ => if zf = .zero then some i1 else none
  | .jlgMemImm i1 _ => if zf = .lam then some i1 else none
  | .jlgImmMem i1 _ => if zf = .one then some i1 else none
  | .jegMemImm i1 _ => if zf = .zero then some i1 else none
  | .jegImmMem i1 _ => if zf = .one then some i1 else none
  | .movRegReg .. | .movRegMem .. | .movImmMem .. | .addRegRegMem .. | .subRegRegMem .. | .nandRegRegMem ..
  | .mskRegRegMem .. | .jmpImm .. | .jlImm .. | .jeImm .. | .jgImm .. | .jleImmImm .. | .jlgImmImm ..
  | .jegImmImm .. | .finish | .reboot => none

/-- The fifteen conditional jump forms, the only instructions that read ZF (R28). -/
def readsZf (i : Instr) : Bool := opcodeFamily (opcodeOf i) == .jxx && jmpTyp (opcodeOf i) != .zero

/-! What a step did. -/

/-- From `s` to `t` the register `u` took the value `v`, ZF is `zf`, the instruction counter moved on by `len`
cells, and nothing else changed: no other register, no cell of RAM, not `halted`. -/
def WritesRegister (u : Reg) (v : Tryte) (zf : Trit) (len : Nat) (s t : State) : Prop :=
  t.reg u = v ∧ (∀ r, r ≠ u → t.reg r = s.reg r) ∧ (∀ a, t.readCell a = s.readCell a) ∧
    t.zf = zf ∧ t.pc = succ s.pc len ∧ t.halted = s.halted

/-- From `s` to `t` the cell at `addr` took the value `v`, ZF is `zf`, the instruction counter moved on by `len`
cells, and nothing else changed: no register, no other cell of RAM, not `halted`. -/
def WritesCell (addr v : Tryte) (zf : Trit) (len : Nat) (s t : State) : Prop :=
  (∀ r, t.reg r = s.reg r) ∧ t.readCell addr = some v ∧ (∀ a, a ≠ addr → t.readCell a = s.readCell a) ∧
    t.zf = zf ∧ t.pc = succ s.pc len ∧ t.halted = s.halted

/-- From `s` to `t` the instruction counter became `target`, and nothing else changed: no register, no cell of
RAM, not ZF, not `halted`. -/
def OnlyMovesTo (target : Tryte) (s t : State) : Prop :=
  (∀ r, t.reg r = s.reg r) ∧ (∀ a, t.readCell a = s.readCell a) ∧ t.zf = s.zf ∧ t.pc = target ∧
    t.halted = s.halted

/-- The instruction answers a next state, and that state is as `P` says. -/
def Completes (i : Instr) (s : State) (P : State → State → Prop) : Prop :=
  ∃ t, exec i s = .next t ∧ P s t

/-! Runs (70_reset_and_hazards.md rule R203, 60_exceptions.md rule R181). -/

/-- `t` comes after `s` in some number of steps. -/
inductive Reaches : State → State → Prop where
  | here (s : State) : Reaches s s
  | step {s t u : State} : Reaches s t → Machine.step t = .next u → Reaches s u

/-- The run from `s` ends in `t`: `finish` has executed (R203). -/
def EndsIn (s t : State) : Prop := Reaches s t ∧ t.halted = true

/-- No run from `s` reaches a refusal, which a claim about a program must show (R181), nor a fault. -/
def Safe (s : State) : Prop := ∀ t, Reaches s t → ∃ u, Machine.step t = .next u

end Sys2Proof.Safety
end

