-- ==== Sys2Proof/Certificates/Slice0/Obligations.lean ====
section
/-! DEFINITION. The statements for the provers. A statement marked "decision D<n>" rests on a decision of
92_eei_decisions.md, which is the spec's own choice and no statement of its source; one marked "log <n>" rests on the
model's choice in notes/assumptions/<n>.md. -/

open Sys2Proof Sys2Proof.Machine Sys2Proof.Safety

/-- Reset: not halted, RAM unwritten, pc at RESET_IC; the zero registers, ZF and RESET_IC are the model's choice.
Rests on 10_state.md section 7 (decision D13); log 3; log 4; log 15. -/
def Obligations.ResetState : Prop :=
  State.reset.halted = false ∧ (∀ a, State.reset.readCell a = none) ∧ State.reset.pc = Config.resetIc ∧
    (Config.resetIc = Tryte.zeros ∧ (∀ r, State.reset.reg r = Tryte.zeros) ∧ State.reset.zf = .zero)

/-- The RAM of the reset state has the canonical form. Rests on 20_memory.md section 1; log 25. -/
def Obligations.ResetRamIsCanonical : Prop :=
  Memory.wf State.reset.ram

/-- Every step keeps the canonical form of RAM. Rests on 20_memory.md section 1; log 25. -/
def Obligations.StepKeepsRamCanonical : Prop :=
  ∀ s t : State, Memory.wf s.ram → step s = .next t → Memory.wf t.ram

/-- A cell that holds a value holds one after every step. Rests on 20_memory.md section 1 (decision D18); log 15. -/
def Obligations.WrittenCellsStayWritten : Prop :=
  ∀ (s t : State) (a : Tryte), step s = .next t → (s.readCell a).isSome → (t.readCell a).isSome

/-- A step of a halted machine answers the same state (decision D11, log 12). Rests on 10_state.md section 6
(decision D11); log 12. -/
def Obligations.HaltedMachineChangesNothing : Prop :=
  ∀ s : State, s.halted = true → step s = .next s

/-- A running machine becomes halted by finish and by nothing else (decision D11). Rests on 10_state.md section 6
(decision D11); 43_codeflow.md section 5; log 12. -/
def Obligations.OnlyFinishEndsRun : Prop :=
  ∀ s t : State, s.halted = false → step s = .next t →
    (t.halted = true ↔ s.readCell s.pc = some ⟨.lam, .one, .one, .zero, .zero, .zero⟩)

/-- Nothing comes after the end of a run but the state it ended in (decision D11). Rests on 70_reset_and_hazards.md
section 3 (decision D11); 10_state.md section 6; log 12. -/
def Obligations.EndedRunStaysEnded : Prop :=
  ∀ s t : State, s.halted = true → Reaches s t → t = s

/-- A step of a running machine is exec of the instruction whose words stand at the instruction counter. Rests on
30_encoding.md section 1 (decision D2); 00_scope.md section 2.1. -/
def Obligations.StepRunsDecodedInstruction : Prop :=
  ∀ (s : State) (ws : List Tryte) (i : Instr), s.halted = false → decode ws = .ok (i, []) → s.holdsAt s.pc ws = true →
    step s = exec i s

/-- A step is refused exactly where the opcode at the instruction counter is undefined (decision D14). Rests on
30_encoding.md section 5 (decision D14); 60_exceptions.md section 1; log 14. -/
def Obligations.StepRefusesExactlyUndefinedOpcodes : Prop :=
  ∀ (s : State) (r : Refusal),
    step s = .refused r ↔
      s.halted = false ∧ ∃ op, s.readCell s.pc = some op ∧ definedOpcode op = false ∧ r = .undefinedOpcode op

/-- The only fault of a step is a cell that nothing has written (log 15). Rests on 93_implementation_defined.md U13;
60_exceptions.md section 1; log 15. -/
def Obligations.StepFaultsOnlyOnUnwrittenCells : Prop :=
  ∀ (s : State) (f : Fault),
    step s = .fault f → s.halted = false ∧ ∃ a, f = .unwrittenCell a ∧ s.readCell a = none

/-- With every cell written, a step stops only at an undefined opcode (decisions D14, D15, D18). Rests on
60_exceptions.md section 1 (decision D15); 20_memory.md section 1 (decision D18); 30_encoding.md section 5. -/
def Obligations.StepCompletesWhereCellsAreWritten : Prop :=
  ∀ s : State, (∀ a, (s.readCell a).isSome) →
    (s.halted = true ∨ ∃ op, s.readCell s.pc = some op ∧ definedOpcode op = true) → ∃ t, step s = .next t

/-- Every one of the 35 instructions completes, unless the one cell it reads has no value (log 15). Rests on
20_memory.md section 3 (decision D19); 60_exceptions.md section 1 (decision D15); log 15; log 20. -/
def Obligations.InstructionCompletesUnlessItsCellIsUnwritten : Prop :=
  ∀ (i : Instr) (s : State),
    (dataRead i s.zf = none → ∃ t, exec i s = .next t) ∧
    (∀ a v, dataRead i s.zf = some a → s.readCell a = some v → ∃ t, exec i s = .next t) ∧
    (∀ a, dataRead i s.zf = some a → s.readCell a = none → exec i s = .fault (.unwrittenCell a))

/-- Every instruction changes only the register or the cell the tables of R24 and R47 give it. Rests on 10_state.md
section 1; 20_memory.md section 3. -/
def Obligations.InstructionsChangeOnlyTheirDestination : Prop :=
  ∀ (i : Instr) (s t : State), exec i s = .next t →
    (∀ r, regWritten i ≠ some r → t.reg r = s.reg r) ∧
    (∀ a, dataWrite i ≠ some a → t.readCell a = s.readCell a)

/-- A register that changes is the one T0 of the opcode selects, and then RAM is untouched. Rests on 10_state.md
section 1; 40_datapath_and_decoder.md section 2; 20_memory.md section 3. -/
def Obligations.RegisterWriteGoesThroughOnePort : Prop :=
  ∀ (i : Instr) (s t : State) (r : Reg), exec i s = .next t → t.reg r ≠ s.reg r →
    r = Reg.ofTrit (regAdr (opcodeOf i)) ∧ r = Reg.ofTrit (regCh2 (opcodeOf i)) ∧ regAct (opcodeOf i) = .one ∧
      ramAct (opcodeOf i) = .zero ∧ (∀ q, q ≠ r → t.reg q = s.reg q) ∧ ∀ a, t.readCell a = s.readCell a

/-- ZF is the sign of the stored result after an ALU instruction and unchanged after every other (decision D8).
Rests on 10_state.md section 3 (decision D8); 42_alu.md section 1 (decision D8); log 9. -/
def Obligations.OnlyAluWritesZf : Prop :=
  ∀ (i : Instr) (s t : State), exec i s = .next t →
    (familyOf i ≠ .alu → t.zf = s.zf) ∧
    (familyOf i = .alu →
      (∀ u, regWritten i = some u → t.zf = sign (t.reg u)) ∧
      (∀ a, dataWrite i = some a → ∃ v, t.readCell a = some v ∧ t.zf = sign v))

/-- No code-flow instruction changes a register, RAM or ZF. Rests on 43_codeflow.md (common to all nineteen);
20_memory.md section 3. -/
def Obligations.CodeFlowWritesNothing : Prop :=
  ∀ (i : Instr) (s t : State), familyOf i = .jxx → exec i s = .next t →
    (∀ r, t.reg r = s.reg r) ∧ (∀ a, t.readCell a = s.readCell a) ∧ t.zf = s.zf

/-- Every MOV and ALU instruction ends at the instruction that follows it in memory (decision D3). Rests on
10_state.md section 2 (decision D3); 20_memory.md section 2 (decision D2); log 2. -/
def Obligations.MovAndAluGoOnSequentially : Prop :=
  ∀ (i : Instr) (s t : State), familyOf i ≠ .jxx → exec i s = .next t → t.pc = succ s.pc (encode i).length

/-- But for finish and reboot, the counter takes the next address or a target the program supplies. Rests on
43_codeflow.md section 1; 60_exceptions.md section 2. -/
def Obligations.CounterTakesOnlyProgramSuppliedTargets : Prop :=
  ∀ (i : Instr) (s t : State), i ≠ .finish → i ≠ .reboot → exec i s = .next t →
    t.pc = succ s.pc (encode i).length ∨ t.pc ∈ (encode i).tail ∨
      ∃ i1, (encode i).tail.head? = some i1 ∧ s.readCell i1 = some t.pc

/-- Only the fifteen conditional jumps depend on ZF (decision D8). Rests on 10_state.md section 3 (decision D8);
40_datapath_and_decoder.md section 3. -/
def Obligations.ZfMattersOnlyToConditionalJumps : Prop :=
  ∀ (i : Instr) (z : Trit) (s t : State), readsZf i = false → exec i s = .next t →
    ∃ t', exec i (s.setZf z) = .next t' ∧ (∀ r, t'.reg r = t.reg r) ∧ t'.ram = t.ram ∧ t'.pc = t.pc ∧
      t'.halted = t.halted ∧ (familyOf i = .alu → t'.zf = t.zf) ∧ (familyOf i ≠ .alu → t'.zf = z)

/-- An instruction does not depend on a register its row of R24 does not read: if it writes that register, the value
written is the same whatever was there, and if it does not, what was there stays. Rests on 10_state.md section 1;
40_datapath_and_decoder.md section 3. -/
def Obligations.UnreadRegisterDoesNotMatter : Prop :=
  ∀ (i : Instr) (r : Reg) (v : Tryte) (s t : State), r ∉ regsRead i → exec i s = .next t →
    ∃ t', exec i (s.setReg r v) = .next t' ∧ t'.zf = t.zf ∧ t'.pc = t.pc ∧ t'.ram = t.ram ∧ t'.halted = t.halted ∧
      (∀ q, q ≠ r → t'.reg q = t.reg q) ∧ (regWritten i = some r → t'.reg r = t.reg r) ∧
      (regWritten i ≠ some r → t'.reg r = v)

/-- The decoder reads each of the 35 rows of the opcode map as that row's instruction, and 119 opcodes in all.
States R70. -/
def Obligations.OpcodeMapRows : Prop :=
    (∀ (a u : Reg) (rest : List Tryte), decode (⟨.one, .lam, .lam, .zero, a.trit, u.trit⟩ :: rest) =
      .ok (.movRegReg a u, rest)) ∧
    (∀ (u : Reg) (i1 : Tryte) (rest : List Tryte), decode (⟨.one, .zero, .lam, .zero, .zero, u.trit⟩ :: i1 :: rest) =
      .ok (.movMemReg i1 u, rest)) ∧
    (∀ (a : Reg) (i1 : Tryte) (rest : List Tryte), decode (⟨.one, .lam, .one, .zero, a.trit, .zero⟩ :: i1 :: rest) =
      .ok (.movRegMem a i1, rest)) ∧
    (∀ (i1 i2 : Tryte) (rest : List Tryte), decode (⟨.one, .one, .one, .zero, .zero, .zero⟩ :: i1 :: i2 :: rest) =
      .ok (.movImmMem i1 i2, rest)) ∧
    (∀ (a c : Reg) (i1 : Tryte) (rest : List Tryte), decode (⟨.zero, .lam, .lam, .zero, c.trit, a.trit⟩ :: i1 :: rest) =
      .ok (.addRegRegMem a c i1, rest)) ∧
    (∀ (c u : Reg) (i1 : Tryte) (rest : List Tryte), decode (⟨.zero, .zero, .lam, .zero, c.trit, u.trit⟩ :: i1 :: rest) =
      .ok (.addMemRegReg i1 c u, rest)) ∧
    (∀ (u : Reg) (i1 i2 : Tryte) (rest : List Tryte), decode (⟨.zero, .one, .lam, .zero, .zero, u.trit⟩ :: i1 :: i2 :: rest) =
      .ok (.addMemImmReg i1 i2 u, rest)) ∧
    (∀ (a c : Reg) (i1 : Tryte) (rest : List Tryte), decode (⟨.zero, .lam, .lam, .lam, c.trit, a.trit⟩ :: i1 :: rest) =
      .ok (.subRegRegMem a c i1, rest)) ∧
    (∀ (c u : Reg) (i1 : Tryte) (rest : List Tryte), decode (⟨.zero, .zero, .lam, .lam, c.trit, u.trit⟩ :: i1 :: rest) =
      .ok (.subMemRegReg i1 c u, rest)) ∧
    (∀ (u : Reg) (i1 i2 : Tryte) (rest : List Tryte), decode (⟨.zero, .one, .lam, .lam, .zero, u.trit⟩ :: i1 :: i2 :: rest) =
      .ok (.subMemImmReg i1 i2 u, rest)) ∧
    (∀ (a c : Reg) (i1 : Tryte) (rest : List Tryte), decode (⟨.zero, .lam, .zero, .zero, c.trit, a.trit⟩ :: i1 :: rest) =
      .ok (.nandRegRegMem a c i1, rest)) ∧
    (∀ (c u : Reg) (i1 : Tryte) (rest : List Tryte), decode (⟨.zero, .zero, .zero, .zero, c.trit, u.trit⟩ :: i1 :: rest) =
      .ok (.nandMemRegReg i1 c u, rest)) ∧
    (∀ (u : Reg) (i1 i2 : Tryte) (rest : List Tryte), decode (⟨.zero, .one, .zero, .zero, .zero, u.trit⟩ :: i1 :: i2 :: rest) =
      .ok (.nandMemImmReg i1 i2 u, rest)) ∧
    (∀ (a c : Reg) (i1 : Tryte) (rest : List Tryte), decode (⟨.zero, .lam, .one, .zero, c.trit, a.trit⟩ :: i1 :: rest) =
      .ok (.mskRegRegMem a c i1, rest)) ∧
    (∀ (c u : Reg) (i1 : Tryte) (rest : List Tryte), decode (⟨.zero, .zero, .one, .zero, c.trit, u.trit⟩ :: i1 :: rest) =
      .ok (.mskMemRegReg i1 c u, rest)) ∧
    (∀ (u : Reg) (i1 i2 : Tryte) (rest : List Tryte), decode (⟨.zero, .one, .one, .zero, .zero, u.trit⟩ :: i1 :: i2 :: rest) =
      .ok (.mskMemImmReg i1 i2 u, rest)) ∧
    (∀ (i1 : Tryte) (rest : List Tryte), decode (⟨.lam, .zero, .lam, .zero, .zero, .zero⟩ :: i1 :: rest) =
      .ok (.jmpMem i1, rest)) ∧
    (∀ (i1 : Tryte) (rest : List Tryte), decode (⟨.lam, .zero, .one, .zero, .zero, .lam⟩ :: i1 :: rest) =
      .ok (.jmpImm i1, rest)) ∧
    (∀ (i1 : Tryte) (rest : List Tryte), decode (⟨.lam, .zero, .lam, .one, .lam, .zero⟩ :: i1 :: rest) =
      .ok (.jlMem i1, rest)) ∧
    (∀ (i1 : Tryte) (rest : List Tryte), decode (⟨.lam, .zero, .one, .one, .lam, .lam⟩ :: i1 :: rest) =
      .ok (.jlImm i1, rest)) ∧
    (∀ (i1 : Tryte) (rest : List Tryte), decode (⟨.lam, .zero, .lam, .one, .zero, .zero⟩ :: i1 :: rest) =
      .ok (.jeMem i1, rest)) ∧
    (∀ (i1 : Tryte) (rest : List Tryte), decode (⟨.lam, .zero, .one, .one, .zero, .lam⟩ :: i1 :: rest) =
      .ok (.jeImm i1, rest)) ∧
    (∀ (i1 : Tryte) (rest : List Tryte), decode (⟨.lam, .zero, .lam, .one, .one, .zero⟩ :: i1 :: rest) =
      .ok (.jgMem i1, rest)) ∧
    (∀ (i1 : Tryte) (rest : List Tryte), decode (⟨.lam, .zero, .one, .one, .one, .lam⟩ :: i1 :: rest) =
      .ok (.jgImm i1, rest)) ∧
    (∀ (i1 i2 : Tryte) (rest : List Tryte), decode (⟨.lam, .zero, .zero, .lam, .one, .one⟩ :: i1 :: i2 :: rest) =
      .ok (.jleMemImm i1 i2, rest)) ∧
    (∀ (i1 i2 : Tryte) (rest : List Tryte), decode (⟨.lam, .zero, .one, .lam, .one, .zero⟩ :: i1 :: i2 :: rest) =
      .ok (.jleImmImm i1 i2, rest)) ∧
    (∀ (i1 i2 : Tryte) (rest : List Tryte), decode (⟨.lam, .zero, .lam, .lam, .one, .one⟩ :: i1 :: i2 :: rest) =
      .ok (.jleImmMem i1 i2, rest)) ∧
    (∀ (i1 i2 : Tryte) (rest : List Tryte), decode (⟨.lam, .zero, .zero, .lam, .zero, .one⟩ :: i1 :: i2 :: rest) =
      .ok (.jlgMemImm i1 i2, rest)) ∧
    (∀ (i1 i2 : Tryte) (rest : List Tryte), decode (⟨.lam, .zero, .one, .lam, .zero, .zero⟩ :: i1 :: i2 :: rest) =
      .ok (.jlgImmImm i1 i2, rest)) ∧
    (∀ (i1 i2 : Tryte) (rest : List Tryte), decode (⟨.lam, .zero, .lam, .lam, .zero, .one⟩ :: i1 :: i2 :: rest) =
      .ok (.jlgImmMem i1 i2, rest)) ∧
    (∀ (i1 i2 : Tryte) (rest : List Tryte), decode (⟨.lam, .zero, .zero, .lam, .lam, .one⟩ :: i1 :: i2 :: rest) =
      .ok (.jegMemImm i1 i2, rest)) ∧
    (∀ (i1 i2 : Tryte) (rest : List Tryte), decode (⟨.lam, .zero, .one, .lam, .lam, .zero⟩ :: i1 :: i2 :: rest) =
      .ok (.jegImmImm i1 i2, rest)) ∧
    (∀ (i1 i2 : Tryte) (rest : List Tryte), decode (⟨.lam, .zero, .lam, .lam, .lam, .one⟩ :: i1 :: i2 :: rest) =
      .ok (.jegImmMem i1 i2, rest)) ∧
    (∀ (rest : List Tryte), decode (⟨.lam, .one, .one, .zero, .zero, .zero⟩ :: rest) =
      .ok (.finish, rest)) ∧
    (∀ (rest : List Tryte), decode (⟨.lam, .lam, .one, .zero, .zero, .zero⟩ :: rest) =
      .ok (.reboot, rest)) ∧
    ((List.range 729).map tryteOfIndex).countP (fun op => (decodeOpcode op).isSome) = 119

/-- Decoding the encoding of any instruction gives that instruction back. Rests on 30_encoding.md section 4;
30_encoding.md section 1 (decision D2). -/
def Obligations.DecodeEncodeAgree : Prop :=
  ∀ (i : Instr) (rest : List Tryte), decode (encode i ++ rest) = .ok (i, rest)

/-- What decodes to an instruction is that instruction's encoding: each opcode has one meaning and one spelling.
Rests on 30_encoding.md section 4; 30_encoding.md section 5 (decision D14). -/
def Obligations.DecodedWordsAreTheEncoding : Prop :=
  ∀ (ws rest : List Tryte) (i : Instr), decode ws = .ok (i, rest) → ws = encode i ++ rest

/-- The decoder rejects as undefined exactly the opcodes outside rule R71's predicate (decision D14). Rests on
30_encoding.md section 5 (decision D14); log 14. -/
def Obligations.DecoderRejectsExactlyUndefinedOpcodes : Prop :=
  ∀ (op : Tryte) (rest : List Tryte),
    decode (op :: rest) = .error (.undefinedOpcode op) ↔ definedOpcode op = false

/-- 16 MOV, 84 ALU and 19 code-flow opcodes are defined: 119 of 729 (decision D14). Rests on 30_encoding.md section
5 (decision D14). -/
def Obligations.DefinedOpcodeCounts : Prop :=
  ((List.range 729).map tryteOfIndex).countP definedMov = 16 ∧
    ((List.range 729).map tryteOfIndex).countP definedAlu = 84 ∧
    ((List.range 729).map tryteOfIndex).countP definedJxx = 19 ∧
    ((List.range 729).map tryteOfIndex).countP definedOpcode = 119

/-- The variable ins-len gives every instruction its length in trytes. States R80. -/
def Obligations.InsLenIsTheLength : Prop :=
  (lengthOf .lam = 1 ∧ lengthOf .zero = 2 ∧ lengthOf .one = 3 ∧ ∀ l : Trit, (lengthOf l : Int) = l.val + 2) ∧
    ∀ i : Instr, (encode i).length = lengthOf (insLen (opcodeOf i))

/-- For no opcode does the Instruction Decoder produce fill, or a selector value R114 excludes. Rests on
40_datapath_and_decoder.md section 3 (decision D22); 93_implementation_defined.md U1, U2, U16. -/
def Obligations.DecoderNeverSelectsForbiddenValues : Prop :=
  (∀ op : Tryte, (controls op).regAct ≠ .lam ∧ (controls op).ramAct ≠ .lam ∧ (controls op).ramAdr = .one ∧
      (controls op).aluOp1 ≠ .one) ∧
    ∀ v : Trit, (∃ op, regSrc op = v) ∧ (∃ op, ramSrc op = v) ∧ (∃ op, icSrc op = v) ∧ (∃ op, aluOp2 op = v) ∧
      (∃ op, op2Mod op = v) ∧ ∃ op, aluAct op = v

/-- The source's 35 printed rows and the decoder functions agree but for the don't-care cells (C1). Rests on
40_datapath_and_decoder.md section 3; 90_conflicts.md C1; 95_test_vectors.md section 1; log 26. -/
def Obligations.SourceTableAgreesWithDecoder : Prop :=
  ∀ i : Instr,
    (familyOf i ≠ .jxx → sourceRow i = { controls (opcodeOf i) with jmpCon := .zero }) ∧
    (familyOf i = .jxx →
      sourceRow i = { controls (opcodeOf i) with regAdr := .zero, regCh1 := .zero, regCh2 := .zero })

/-- The data path steered by the sixteen decoded variables does what each instruction's own rule says. Rests on
40_datapath_and_decoder.md section 3; 90_conflicts.md C3, C4; log 23. -/
def Obligations.DataPathRefinesInstructionSet : Prop :=
  ∀ (i : Instr) (op i1 i2 : Tryte) (s : State), encode i <+: [op, i1, i2] → dataPathStep op i1 i2 s = exec i s

/-- The instruction the host's word spells is the one the next step runs (log 21, 22). Rests on 30_encoding.md
section 1; log 21; log 22. -/
def Obligations.HostWordRunsAsFetched : Prop :=
  ∀ (s : State) (nbits w : Nat) (i : Instr), decodeTableWord nbits w = some i →
    step (s.withFetchWord nbits w) = exec i (s.withFetchWord nbits w)

/-- A few opcodes of 95_test_vectors.md, written out trit by trit, decode to their instructions. Rests on
95_test_vectors.md section 2.3. -/
def Obligations.SampleWordsDecode : Prop :=
  ∀ i1 i2 : Tryte,
    decode [⟨.one, .lam, .lam, .zero, .one, .lam⟩] = .ok (.movRegReg .r1 .rz, []) ∧
    decode [⟨.zero, .lam, .lam, .zero, .one, .zero⟩, i1] = .ok (.addRegRegMem .r0 .r1 i1, []) ∧
    decode [⟨.zero, .lam, .lam, .lam, .zero, .one⟩, i1] = .ok (.subRegRegMem .r1 .r0 i1, []) ∧
    decode [⟨.zero, .one, .lam, .lam, .zero, .lam⟩, i1, i2] = .ok (.subMemImmReg i1 i2 .rz, []) ∧
    decode [⟨.zero, .zero, .one, .zero, .lam, .zero⟩, i1] = .ok (.mskMemRegReg i1 .rz .r0, []) ∧
    decode [⟨.lam, .zero, .lam, .lam, .zero, .one⟩, i1, i2] = .ok (.jlgImmMem i1 i2, []) ∧
    decode [⟨.lam, .one, .one, .zero, .zero, .zero⟩] = .ok (.finish, []) ∧
    decode [⟨.zero, .lam, .lam, .one, .zero, .one⟩, i1] =
      .error (.undefinedOpcode ⟨.zero, .lam, .lam, .one, .zero, .one⟩)

/-- mov a → u: the register u takes the value of a, and nothing else changes but the counter. States R120. -/
def Obligations.MovRegToRegCopies : Prop :=
  (∀ (a u : Reg) (s : State),
    encode (.movRegReg a u) = [⟨.one, .lam, .lam, .zero, a.trit, u.trit⟩] ∧
    { controls ⟨.one, .lam, .lam, .zero, a.trit, u.trit⟩ with jmpCon := .zero } =
      ⟨.lam, .zero, .zero, .zero, .one, .zero, u.trit, a.trit, u.trit, .zero, .lam, .one, .zero, .zero, .zero, .zero⟩ ∧
    Completes (.movRegReg a u) s (WritesRegister u (s.reg a) s.zf 1))

/-- mov [i1] → u: the register u takes the tryte in cell i1, and nothing else changes but the counter. States R121. -/
def Obligations.MovMemToRegLoads : Prop :=
  (∀ (i1 v : Tryte) (u : Reg) (s : State),
    encode (.movMemReg i1 u) = [⟨.one, .zero, .lam, .zero, .zero, u.trit⟩, i1] ∧
    { controls ⟨.one, .zero, .lam, .zero, .zero, u.trit⟩ with jmpCon := .zero } =
      ⟨.zero, .zero, .zero, .zero, .one, .lam, u.trit, .zero, u.trit, .zero, .one, .one, .zero, .zero, .zero, .zero⟩ ∧
    (s.readCell i1 = some v → Completes (.movMemReg i1 u) s (WritesRegister u v s.zf 2)))

/-- mov a → [i1]: the cell i1 takes the value of a, and nothing else changes but the counter. States R122. -/
def Obligations.MovRegToMemStores : Prop :=
  (∀ (a : Reg) (i1 : Tryte) (s : State),
    encode (.movRegMem a i1) = [⟨.one, .lam, .one, .zero, a.trit, .zero⟩, i1] ∧
    { controls ⟨.one, .lam, .one, .zero, a.trit, .zero⟩ with jmpCon := .zero } =
      ⟨.zero, .zero, .zero, .zero, .zero, .zero, .zero, a.trit, .zero, .one, .lam, .one, .zero, .zero, .zero, .zero⟩ ∧
    Completes (.movRegMem a i1) s (WritesCell i1 (s.reg a) s.zf 2))

/-- mov i2 → [i1]: the cell i1 takes the second immediate, and nothing else changes but the counter. States R123. -/
def Obligations.MovImmToMemStores : Prop :=
  (∀ (i1 i2 : Tryte) (s : State),
    encode (.movImmMem i1 i2) = [⟨.one, .one, .one, .zero, .zero, .zero⟩, i1, i2] ∧
    { controls ⟨.one, .one, .one, .zero, .zero, .zero⟩ with jmpCon := .zero } =
      ⟨.one, .zero, .zero, .zero, .zero, .one, .zero, .zero, .zero, .one, .zero, .one, .zero, .zero, .zero, .zero⟩ ∧
    Completes (.movImmMem i1 i2) s (WritesCell i1 i2 s.zf 3))

/-- add: the destination takes the wrapped sum of the operands, ZF its sign (decisions D4, D8). Rests on 42_alu.md
section 2 (decisions D4, D8); log 8; log 9. -/
def Obligations.AddInAllForms : Prop :=
  (∀ (a c : Reg) (i1 : Tryte) (s : State),
    encode (.addRegRegMem a c i1) = [⟨.zero, .lam, .lam, .zero, c.trit, a.trit⟩, i1] ∧
    Completes (.addRegRegMem a c i1) s
      (WritesCell i1 (addT (s.reg a) (s.reg c)) (sign (addT (s.reg a) (s.reg c))) 2)) ∧
  (∀ (i1 x : Tryte) (c u : Reg) (s : State), s.readCell i1 = some x →
    encode (.addMemRegReg i1 c u) = [⟨.zero, .zero, .lam, .zero, c.trit, u.trit⟩, i1] ∧
    Completes (.addMemRegReg i1 c u) s
      (WritesRegister u (addT x (s.reg c)) (sign (addT x (s.reg c))) 2)) ∧
  (∀ (i1 i2 x : Tryte) (u : Reg) (s : State), s.readCell i1 = some x →
    encode (.addMemImmReg i1 i2 u) = [⟨.zero, .one, .lam, .zero, .zero, u.trit⟩, i1, i2] ∧
    Completes (.addMemImmReg i1 i2 u) s
      (WritesRegister u (addT x i2) (sign (addT x i2)) 3))

/-- sub: the destination takes the wrapped difference of the operands, ZF its sign (decisions D4, D8). Rests on
42_alu.md section 3 (decisions D4, D8); log 8; log 9. -/
def Obligations.SubInAllForms : Prop :=
  (∀ (a c : Reg) (i1 : Tryte) (s : State),
    encode (.subRegRegMem a c i1) = [⟨.zero, .lam, .lam, .lam, c.trit, a.trit⟩, i1] ∧
    Completes (.subRegRegMem a c i1) s
      (WritesCell i1 (addT (s.reg a) (negT (s.reg c))) (sign (addT (s.reg a) (negT (s.reg c)))) 2)) ∧
  (∀ (i1 x : Tryte) (c u : Reg) (s : State), s.readCell i1 = some x →
    encode (.subMemRegReg i1 c u) = [⟨.zero, .zero, .lam, .lam, c.trit, u.trit⟩, i1] ∧
    Completes (.subMemRegReg i1 c u) s
      (WritesRegister u (addT x (negT (s.reg c))) (sign (addT x (negT (s.reg c)))) 2)) ∧
  (∀ (i1 i2 x : Tryte) (u : Reg) (s : State), s.readCell i1 = some x →
    encode (.subMemImmReg i1 i2 u) = [⟨.zero, .one, .lam, .lam, .zero, u.trit⟩, i1, i2] ∧
    Completes (.subMemImmReg i1 i2 u) s
      (WritesRegister u (addT x (negT i2)) (sign (addT x (negT i2))) 3))

/-- nand: the destination takes NANY of the operands, whatever function NANY is, ZF its sign (D5, D8). Rests on
42_alu.md section 4 (decisions D5, D8); log 6; log 9. -/
def Obligations.NandInAllForms : Prop :=
  (∀ (a c : Reg) (i1 : Tryte) (s : State),
    encode (.nandRegRegMem a c i1) = [⟨.zero, .lam, .zero, .zero, c.trit, a.trit⟩, i1] ∧
    Completes (.nandRegRegMem a c i1) s
      (WritesCell i1 (Config.nany (s.reg a) (s.reg c)) (sign (Config.nany (s.reg a) (s.reg c))) 2)) ∧
  (∀ (i1 x : Tryte) (c u : Reg) (s : State), s.readCell i1 = some x →
    encode (.nandMemRegReg i1 c u) = [⟨.zero, .zero, .zero, .zero, c.trit, u.trit⟩, i1] ∧
    Completes (.nandMemRegReg i1 c u) s
      (WritesRegister u (Config.nany x (s.reg c)) (sign (Config.nany x (s.reg c))) 2)) ∧
  (∀ (i1 i2 x : Tryte) (u : Reg) (s : State), s.readCell i1 = some x →
    encode (.nandMemImmReg i1 i2 u) = [⟨.zero, .one, .zero, .zero, .zero, u.trit⟩, i1, i2] ∧
    Completes (.nandMemImmReg i1 i2 u) s
      (WritesRegister u (Config.nany x i2) (sign (Config.nany x i2)) 3))

/-- msk: the destination takes LMUL of the operands, whatever function LMUL is, ZF its sign (D6, D8). Rests on
42_alu.md section 5 (decisions D6, D8); log 7; log 9. -/
def Obligations.MskInAllForms : Prop :=
  (∀ (a c : Reg) (i1 : Tryte) (s : State),
    encode (.mskRegRegMem a c i1) = [⟨.zero, .lam, .one, .zero, c.trit, a.trit⟩, i1] ∧
    Completes (.mskRegRegMem a c i1) s
      (WritesCell i1 (Config.lmul (s.reg a) (s.reg c)) (sign (Config.lmul (s.reg a) (s.reg c))) 2)) ∧
  (∀ (i1 x : Tryte) (c u : Reg) (s : State), s.readCell i1 = some x →
    encode (.mskMemRegReg i1 c u) = [⟨.zero, .zero, .one, .zero, c.trit, u.trit⟩, i1] ∧
    Completes (.mskMemRegReg i1 c u) s
      (WritesRegister u (Config.lmul x (s.reg c)) (sign (Config.lmul x (s.reg c))) 2)) ∧
  (∀ (i1 i2 x : Tryte) (u : Reg) (s : State), s.readCell i1 = some x →
    encode (.mskMemImmReg i1 i2 u) = [⟨.zero, .one, .one, .zero, .zero, u.trit⟩, i1, i2] ∧
    Completes (.mskMemImmReg i1 i2 u) s
      (WritesRegister u (Config.lmul x i2) (sign (Config.lmul x i2)) 3))

/-- jmp: the counter takes i1, or the tryte in cell i1, and nothing else changes. States R153, R154. -/
def Obligations.JmpJumps : Prop :=
  (∀ (i1 v : Tryte) (s : State),
    encode (.jmpMem i1) = [⟨.lam, .zero, .lam, .zero, .zero, .zero⟩, i1] ∧
    { controls ⟨.lam, .zero, .lam, .zero, .zero, .zero⟩ with regAdr := .zero, regCh1 := .zero, regCh2 := .zero } =
      ⟨.zero, .lam, .zero, .zero, .zero, .one, .zero, .zero, .zero, .zero, .one, .one, .zero, .zero, .zero, .zero⟩ ∧
    (s.readCell i1 = some v → Completes (.jmpMem i1) s (OnlyMovesTo v))) ∧
  (∀ (i1 : Tryte) (s : State),
    encode (.jmpImm i1) = [⟨.lam, .zero, .one, .zero, .zero, .lam⟩, i1] ∧
    { controls ⟨.lam, .zero, .one, .zero, .zero, .lam⟩ with regAdr := .zero, regCh1 := .zero, regCh2 := .zero } =
      ⟨.zero, .one, .zero, .zero, .zero, .one, .zero, .zero, .zero, .zero, .one, .one, .zero, .zero, .lam, .zero⟩ ∧
    Completes (.jmpImm i1) s (OnlyMovesTo i1))

/-- jl: jumps when ZF < 0 and goes on to the next instruction otherwise (decision D9). Rests on 43_codeflow.md
section 3 (decision D9); 20_memory.md section 3 (decision D19); log 10. -/
def Obligations.JlJumpsOnItsCondition : Prop :=
  (∀ i1 : Tryte, encode (.jlMem i1) = [⟨.lam, .zero, .lam, .one, .lam, .zero⟩, i1] ∧
    encode (.jlImm i1) = [⟨.lam, .zero, .one, .one, .lam, .lam⟩, i1]) ∧
  (∀ (i1 v : Tryte) (s : State), s.zf = .lam → s.readCell i1 = some v → Completes (.jlMem i1) s (OnlyMovesTo v)) ∧
  (∀ (i1 : Tryte) (s : State), s.zf = .lam → Completes (.jlImm i1) s (OnlyMovesTo i1)) ∧
  (∀ (i1 : Tryte) (s : State), s.zf ≠ .lam →
    Completes (.jlMem i1) s (OnlyMovesTo (succ s.pc 2)) ∧ Completes (.jlImm i1) s (OnlyMovesTo (succ s.pc 2)))

/-- je: jumps when ZF = 0 and goes on to the next instruction otherwise (decision D9). Rests on 43_codeflow.md
section 3 (decision D9); 20_memory.md section 3 (decision D19); log 10. -/
def Obligations.JeJumpsOnItsCondition : Prop :=
  (∀ i1 : Tryte, encode (.jeMem i1) = [⟨.lam, .zero, .lam, .one, .zero, .zero⟩, i1] ∧
    encode (.jeImm i1) = [⟨.lam, .zero, .one, .one, .zero, .lam⟩, i1]) ∧
  (∀ (i1 v : Tryte) (s : State), s.zf = .zero → s.readCell i1 = some v → Completes (.jeMem i1) s (OnlyMovesTo v)) ∧
  (∀ (i1 : Tryte) (s : State), s.zf = .zero → Completes (.jeImm i1) s (OnlyMovesTo i1)) ∧
  (∀ (i1 : Tryte) (s : State), s.zf ≠ .zero →
    Completes (.jeMem i1) s (OnlyMovesTo (succ s.pc 2)) ∧ Completes (.jeImm i1) s (OnlyMovesTo (succ s.pc 2)))

/-- jg: jumps when ZF > 0 and goes on to the next instruction otherwise (decision D9). Rests on 43_codeflow.md
section 3 (decision D9); 20_memory.md section 3 (decision D19); log 10. -/
def Obligations.JgJumpsOnItsCondition : Prop :=
  (∀ i1 : Tryte, encode (.jgMem i1) = [⟨.lam, .zero, .lam, .one, .one, .zero⟩, i1] ∧
    encode (.jgImm i1) = [⟨.lam, .zero, .one, .one, .one, .lam⟩, i1]) ∧
  (∀ (i1 v : Tryte) (s : State), s.zf = .one → s.readCell i1 = some v → Completes (.jgMem i1) s (OnlyMovesTo v)) ∧
  (∀ (i1 : Tryte) (s : State), s.zf = .one → Completes (.jgImm i1) s (OnlyMovesTo i1)) ∧
  (∀ (i1 : Tryte) (s : State), s.zf ≠ .one →
    Completes (.jgMem i1) s (OnlyMovesTo (succ s.pc 2)) ∧ Completes (.jgImm i1) s (OnlyMovesTo (succ s.pc 2)))

/-- jle A, B: less goes to A, equal to B, greater on to the next instruction (decision D10, log 11). Rests on
43_codeflow.md section 4 (decision D10); 20_memory.md section 3 (decision D19); log 11. -/
def Obligations.JleJumpsThreeWays : Prop :=
  (∀ i1 i2 : Tryte, encode (.jleMemImm i1 i2) = [⟨.lam, .zero, .zero, .lam, .one, .one⟩, i1, i2] ∧
    encode (.jleImmImm i1 i2) = [⟨.lam, .zero, .one, .lam, .one, .zero⟩, i1, i2] ∧
    encode (.jleImmMem i1 i2) = [⟨.lam, .zero, .lam, .lam, .one, .one⟩, i1, i2]) ∧
  (∀ (i1 i2 v : Tryte) (s : State), s.zf = .lam → s.readCell i1 = some v →
    Completes (.jleMemImm i1 i2) s (OnlyMovesTo v)) ∧
  (∀ (i1 i2 : Tryte) (s : State), s.zf = .lam →
    Completes (.jleImmImm i1 i2) s (OnlyMovesTo i1) ∧ Completes (.jleImmMem i1 i2) s (OnlyMovesTo i2)) ∧
  (∀ (i1 i2 v : Tryte) (s : State), s.zf = .zero → s.readCell i1 = some v →
    Completes (.jleImmMem i1 i2) s (OnlyMovesTo v)) ∧
  (∀ (i1 i2 : Tryte) (s : State), s.zf = .zero →
    Completes (.jleMemImm i1 i2) s (OnlyMovesTo i2) ∧ Completes (.jleImmImm i1 i2) s (OnlyMovesTo i2)) ∧
  (∀ (i1 i2 : Tryte) (s : State), s.zf = .one →
    Completes (.jleMemImm i1 i2) s (OnlyMovesTo (succ s.pc 3)) ∧
    Completes (.jleImmImm i1 i2) s (OnlyMovesTo (succ s.pc 3)) ∧
    Completes (.jleImmMem i1 i2) s (OnlyMovesTo (succ s.pc 3)))

/-- jlg A, B: less goes to A, greater to B, equal on to the next instruction (decision D10, log 11). Rests on
43_codeflow.md section 4 (decision D10); 20_memory.md section 3 (decision D19); log 11. -/
def Obligations.JlgJumpsThreeWays : Prop :=
  (∀ i1 i2 : Tryte, encode (.jlgMemImm i1 i2) = [⟨.lam, .zero, .zero, .lam, .zero, .one⟩, i1, i2] ∧
    encode (.jlgImmImm i1 i2) = [⟨.lam, .zero, .one, .lam, .zero, .zero⟩, i1, i2] ∧
    encode (.jlgImmMem i1 i2) = [⟨.lam, .zero, .lam, .lam, .zero, .one⟩, i1, i2]) ∧
  (∀ (i1 i2 v : Tryte) (s : State), s.zf = .lam → s.readCell i1 = some v →
    Completes (.jlgMemImm i1 i2) s (OnlyMovesTo v)) ∧
  (∀ (i1 i2 : Tryte) (s : State), s.zf = .lam →
    Completes (.jlgImmImm i1 i2) s (OnlyMovesTo i1) ∧ Completes (.jlgImmMem i1 i2) s (OnlyMovesTo i2)) ∧
  (∀ (i1 i2 v : Tryte) (s : State), s.zf = .one → s.readCell i1 = some v →
    Completes (.jlgImmMem i1 i2) s (OnlyMovesTo v)) ∧
  (∀ (i1 i2 : Tryte) (s : State), s.zf = .one →
    Completes (.jlgMemImm i1 i2) s (OnlyMovesTo i2) ∧ Completes (.jlgImmImm i1 i2) s (OnlyMovesTo i2)) ∧
  (∀ (i1 i2 : Tryte) (s : State), s.zf = .zero →
    Completes (.jlgMemImm i1 i2) s (OnlyMovesTo (succ s.pc 3)) ∧
    Completes (.jlgImmImm i1 i2) s (OnlyMovesTo (succ s.pc 3)) ∧
    Completes (.jlgImmMem i1 i2) s (OnlyMovesTo (succ s.pc 3)))

/-- jeg A, B: equal goes to A, greater to B, less on to the next instruction (decision D10, log 11). Rests on
43_codeflow.md section 4 (decision D10); 20_memory.md section 3 (decision D19); log 11. -/
def Obligations.JegJumpsThreeWays : Prop :=
  (∀ i1 i2 : Tryte, encode (.jegMemImm i1 i2) = [⟨.lam, .zero, .zero, .lam, .lam, .one⟩, i1, i2] ∧
    encode (.jegImmImm i1 i2) = [⟨.lam, .zero, .one, .lam, .lam, .zero⟩, i1, i2] ∧
    encode (.jegImmMem i1 i2) = [⟨.lam, .zero, .lam, .lam, .lam, .one⟩, i1, i2]) ∧
  (∀ (i1 i2 v : Tryte) (s : State), s.zf = .zero → s.readCell i1 = some v →
    Completes (.jegMemImm i1 i2) s (OnlyMovesTo v)) ∧
  (∀ (i1 i2 : Tryte) (s : State), s.zf = .zero →
    Completes (.jegImmImm i1 i2) s (OnlyMovesTo i1) ∧ Completes (.jegImmMem i1 i2) s (OnlyMovesTo i2)) ∧
  (∀ (i1 i2 v : Tryte) (s : State), s.zf = .one → s.readCell i1 = some v →
    Completes (.jegImmMem i1 i2) s (OnlyMovesTo v)) ∧
  (∀ (i1 i2 : Tryte) (s : State), s.zf = .one →
    Completes (.jegMemImm i1 i2) s (OnlyMovesTo i2) ∧ Completes (.jegImmImm i1 i2) s (OnlyMovesTo i2)) ∧
  (∀ (i1 i2 : Tryte) (s : State), s.zf = .lam →
    Completes (.jegMemImm i1 i2) s (OnlyMovesTo (succ s.pc 3)) ∧
    Completes (.jegImmImm i1 i2) s (OnlyMovesTo (succ s.pc 3)) ∧
    Completes (.jegImmMem i1 i2) s (OnlyMovesTo (succ s.pc 3)))

/-- finish: the counter takes K_CONST, the run is over, and nothing else changes (decision D11). Rests on
43_codeflow.md section 5 (decisions D7, D11); log 5; log 12. -/
def Obligations.FinishHaltsAtKConst : Prop :=
  encode .finish = [⟨.lam, .one, .one, .zero, .zero, .zero⟩] ∧
    ∀ s : State, Completes .finish s fun s t =>
      t.pc = Config.kConst ∧ t.halted = true ∧ (∀ r, t.reg r = s.reg r) ∧ (∀ a, t.readCell a = s.readCell a) ∧ t.zf = s.zf

/-- reboot: the counter takes K_CONST and nothing else changes; it is no reset (decision D12). Rests on
43_codeflow.md section 5 (decisions D7, D12); 70_reset_and_hazards.md section 1; log 5; log 13. -/
def Obligations.RebootOnlyMovesToKConst : Prop :=
  encode .reboot = [⟨.lam, .lam, .one, .zero, .zero, .zero⟩] ∧
    ∀ s : State, Completes .reboot s (OnlyMovesTo Config.kConst)

/-- The Adder gives the one value in −364…+364 that equals the sum modulo 729 (decisions D1, D4). Rests on 42_alu.md
section 1 (decision D4); 00_scope.md section 2 (decision D1); log 1; log 8. -/
def Obligations.AdderWrapsModulo729 : Prop :=
  ∀ p q : Tryte, -364 ≤ val (addT p q) ∧ val (addT p q) ≤ 364 ∧ (val (addT p q) - (val p + val q)) % 729 = 0 ∧
    (-364 ≤ val p + val q → val p + val q ≤ 364 → val (addT p q) = val p + val q)

/-- Negating every trit negates the value, and sub computes the wrapped difference (decision D1). Rests on 42_alu.md
section 1; 00_scope.md section 2 (decision D1); log 1. -/
def Obligations.NegationIsExact : Prop :=
  ∀ p q : Tryte, val (negT q) = -val q ∧ negT (negT q) = q ∧ addT p (negT q) = tryte (val p - val q)

/-- tryte(n) is the one tryte whose value is n modulo 729 (decision D1). Rests on 00_scope.md section 2 (decision
D1); log 1. -/
def Obligations.TryteIsTheUniqueResidue : Prop :=
  ∀ (n : Int) (t : Tryte), (val t - n) % 729 = 0 ↔ t = tryte n

/-- The address successor composes, wraps from 111111 to λλλλλλ and returns after 729 cells (decision D2). Rests on
20_memory.md section 2 (decision D2); log 2. -/
def Obligations.SuccessorWalksTheWholeRing : Prop :=
  (∀ (a : Tryte) (j k : Nat), succ (succ a j) k = succ a (j + k)) ∧ succ Tryte.ones 1 = Tryte.lams ∧
    ∀ (a : Tryte) (j k : Nat), succ a j = succ a k ↔ j % 729 = k % 729

/-- The sign of a tryte is its most significant non-zero trit (K2). Rests on 93_implementation_defined.md K2;
00_scope.md section 2.1. -/
def Obligations.SignIsTheLeadingTrit : Prop :=
  ∀ t : Tryte, sign t = leadingTrit t

/-- After sub [i1], c → u, ZF compares cell and register, while the difference is in range (D4, D8). Rests on
42_alu.md section 1 (decision D8); 43_codeflow.md section 1; log 8; log 9. -/
def Obligations.SubComparesExactlyInRange : Prop :=
  ∀ (i1 x : Tryte) (c u : Reg) (s : State), s.readCell i1 = some x → -364 ≤ val x - val (s.reg c) →
    val x - val (s.reg c) ≤ 364 →
    ∃ t, exec (.subMemRegReg i1 c u) s = .next t ∧ (t.zf = .lam ↔ val x < val (s.reg c)) ∧
      (t.zf = .zero ↔ x = s.reg c) ∧ (t.zf = .one ↔ val (s.reg c) < val x)

/-- NANY*, the recommended instance, is trit-wise the negated sign of the sum (D5, log 6). Rests on 42_alu.md
section 1 (decision D5); log 6. -/
def Obligations.NanyStarIsNegatedAny : Prop :=
  (∀ a b : Trit, (nanyTrit a b).val = -(a.val + b.val).sign) ∧
    (∀ p q : Tryte, nanyStar p q =
      ⟨nanyTrit p.t5 q.t5, nanyTrit p.t4 q.t4, nanyTrit p.t3 q.t3,
      nanyTrit p.t2 q.t2, nanyTrit p.t1 q.t1, nanyTrit p.t0 q.t0⟩) ∧
    (∀ p q : Tryte, nanyStar p q = nanyStar q p) ∧
    (∀ p : Tryte, nanyStar p p = negT p) ∧ ∀ p : Tryte, nanyStar p Tryte.zeros = negT p

/-- LMUL*, the recommended instance, is the trit-wise product: 1 keeps, 0 clears, λ inverts (D6, log 7). Rests on
42_alu.md section 1 (decision D6); log 7. -/
def Obligations.LmulStarMasksTrits : Prop :=
  (∀ a b : Trit, (lmulTrit a b).val = a.val * b.val) ∧
    (∀ p q : Tryte, lmulStar p q =
      ⟨lmulTrit p.t5 q.t5, lmulTrit p.t4 q.t4, lmulTrit p.t3 q.t3,
      lmulTrit p.t2 q.t2, lmulTrit p.t1 q.t1, lmulTrit p.t0 q.t0⟩) ∧
    (∀ p q : Tryte, lmulStar p q = lmulStar q p) ∧
    (∀ p : Tryte, lmulStar p Tryte.ones = p) ∧ (∀ p : Tryte, lmulStar p Tryte.zeros = Tryte.zeros) ∧
    ∀ p : Tryte, lmulStar p Tryte.lams = negT p

/-- The two readings of a complex condition agree exactly at the lower outcome; equal targets (D10, log 11). Rests
on 43_codeflow.md section 1 (decision D10); log 11. -/
def Obligations.ComplexJumpReadings : Prop :=
  (∀ (e zf : Trit) (a b : Operand), a ≠ b →
    (complexTarget .threeWay e zf a b = complexTarget .thenElse e zf a b ↔ zf = (otherOutcomes e).1)) ∧
  ∀ (e zf : Trit) (a : Operand), complexTarget .threeWay e zf a a = if zf = e then none else some a

/-- A store into the following instruction is seen by its fetch (SMC = sequential, decision D16, log 17). Rests on
20_memory.md section 4 (decision D16); log 17. -/
def Obligations.StoreSeenByNextFetch : Prop :=
  ∀ (s : State) (op : Tryte) (j : Instr), s.halted = false → encode j = [op] →
    s.holdsAt s.pc (encode (.movImmMem (succ s.pc 3) op)) = true → ∃ t, step s = .next t ∧ step t = exec j t

/-- Under the option SMC = refuse a store is refused exactly in the three cells after the instruction (D16). Rests
on 20_memory.md section 4 (decision D16); log 17. -/
def Obligations.SmcRefuseWindow : Prop :=
  ∀ (addr v : Tryte) (len : Nat) (s : State),
    (storeNext .refuse addr v len s = .refused .storeIntoNextInstruction ↔ ∃ k, k ≤ 2 ∧ addr = succ s.pc (len + k)) ∧
    ((∀ k, k ≤ 2 → addr ≠ succ s.pc (len + k)) → storeNext .refuse addr v len s = storeNext .sequential addr v len s)
end

