-- ==== Sys2Proof/Laws/Arith.lean ====
section
/-! SUPPORT. Trytes as numbers: range, the inverse of `val`, and the key of an address. -/

namespace Sys2Proof.Machine

theorem trit_val_bounds (t : Trit) : -1 ≤ t.val ∧ t.val ≤ 1 := by cases t <;> decide

theorem val_bounds (t : Tryte) : -364 ≤ val t ∧ val t ≤ 364 := by
  have h5 := trit_val_bounds t.t5
  have h4 := trit_val_bounds t.t4
  have h3 := trit_val_bounds t.t3
  have h2 := trit_val_bounds t.t2
  have h1 := trit_val_bounds t.t1
  have h0 := trit_val_bounds t.t0
  unfold val; omega

/-- A trit is found again from the digit that is one more than its value. -/
theorem tritOfDigit_val (t : Trit) (d : Nat) (h : (d : Int) = t.val + 1) : tritOfDigit d = t := by
  cases t
  · obtain rfl : d = 0 := by simp [Trit.val] at h; omega
    rfl
  · obtain rfl : d = 1 := by simp [Trit.val] at h; omega
    rfl
  · obtain rfl : d = 2 := by simp [Trit.val] at h; omega
    rfl

theorem val_tritOfDigit (d : Nat) (h : d < 3) : (tritOfDigit d).val = (d : Int) - 1 := by
  match d, h with
  | 0, _ => rfl
  | 1, _ => rfl
  | 2, _ => rfl

theorem val_tryteOfIndex (n : Nat) (h : n < 729) : val (tryteOfIndex n) = (n : Int) - 364 := by
  unfold val tryteOfIndex
  simp only
  rw [val_tritOfDigit _ (by omega), val_tritOfDigit _ (by omega), val_tritOfDigit _ (by omega),
    val_tritOfDigit _ (by omega), val_tritOfDigit _ (by omega), val_tritOfDigit _ (by omega)]
  omega

theorem addrIndex_lt (a : Tryte) : addrIndex a < 729 := by
  have := val_bounds a; unfold addrIndex; omega

theorem addrIndex_val (a : Tryte) : (addrIndex a : Int) = val a + 364 := by
  have := val_bounds a; unfold addrIndex; omega

theorem tryteOfIndex_addrIndex (a : Tryte) : tryteOfIndex (addrIndex a) = a := by
  obtain ⟨t5, t4, t3, t2, t1, t0⟩ := a
  have h := addrIndex_val ⟨t5, t4, t3, t2, t1, t0⟩
  simp only [val] at h
  have h5 := trit_val_bounds t5
  have h4 := trit_val_bounds t4
  have h3 := trit_val_bounds t3
  have h2 := trit_val_bounds t2
  have h1 := trit_val_bounds t1
  have h0 := trit_val_bounds t0
  simp only [tryteOfIndex, Tryte.mk.injEq]
  refine ⟨tritOfDigit_val _ _ ?_, tritOfDigit_val _ _ ?_, tritOfDigit_val _ _ ?_, tritOfDigit_val _ _ ?_,
    tritOfDigit_val _ _ ?_, tritOfDigit_val _ _ ?_⟩ <;> omega

theorem addrIndex_inj {a b : Tryte} : addrIndex a = addrIndex b ↔ a = b :=
  ⟨fun h => by rw [← tryteOfIndex_addrIndex a, h, tryteOfIndex_addrIndex], fun h => by rw [h]⟩

theorem val_inj {a b : Tryte} : val a = val b ↔ a = b :=
  ⟨fun h => addrIndex_inj.mp (by unfold addrIndex; rw [h]), fun h => by rw [h]⟩

/-- What `tryte(n)` is worth: `n` brought into −364…+364. -/
theorem val_tryte (n : Int) : val (tryte n) = (n + 364) % 729 - 364 := by
  unfold tryte
  rw [val_tryteOfIndex _ (by omega)]
  omega

end Sys2Proof.Machine
end

