-- ==== Sys2Proof/Laws/Decode.lean ====
section
/-! SUPPORT. Register selectors, and what the format of an opcode makes of the trytes after it. -/

namespace Sys2Proof

@[simp] theorem ofTrit_trit (r : Reg) : Reg.ofTrit r.trit = r := by cases r <;> rfl
@[simp] theorem trit_ofTrit (t : Trit) : (Reg.ofTrit t).trit = t := by cases t <;> rfl

theorem decode_l1 {op : Tryte} {i : Instr} (h : decodeOpcode op = some (.l1 i)) (rest : List Tryte) :
    decode (op :: rest) = .ok (i, rest) := by
  cases rest <;> simp [decode, h]

theorem decode_l2 {op : Tryte} {mk : Tryte → Instr} (h : decodeOpcode op = some (.l2 mk)) (i1 : Tryte)
    (rest : List Tryte) : decode (op :: i1 :: rest) = .ok (mk i1, rest) := by
  simp [decode, h]

theorem decode_l3 {op : Tryte} {mk : Tryte → Tryte → Instr} (h : decodeOpcode op = some (.l3 mk)) (i1 i2 : Tryte)
    (rest : List Tryte) : decode (op :: i1 :: i2 :: rest) = .ok (mk i1 i2, rest) := by
  simp [decode, h]

theorem decode_undefined {op : Tryte} (h : decodeOpcode op = none) (rest : List Tryte) :
    decode (op :: rest) = .error (.undefinedOpcode op) := by
  simp [decode, h]

end Sys2Proof
end

