-- ==== Sys2Proof/Laws/State.lean ====
section
/-! SUPPORT. One lemma for each field of State under each of its updates. -/

namespace Sys2Proof.Machine

variable (s : State) (r : Reg) (v : Tryte) (t : Trit) (addr : Tryte) (len : Nat)

@[simp] theorem setReg_pc : (s.setReg r v).pc = s.pc := by cases r <;> rfl
@[simp] theorem setReg_zf : (s.setReg r v).zf = s.zf := by cases r <;> rfl
@[simp] theorem setReg_ram : (s.setReg r v).ram = s.ram := by cases r <;> rfl
@[simp] theorem setReg_halted : (s.setReg r v).halted = s.halted := by cases r <;> rfl
@[simp] theorem setReg_readCell : (s.setReg r v).readCell addr = s.readCell addr := by cases r <;> rfl
@[simp] theorem setReg_reg_same : (s.setReg r v).reg r = v := by cases r <;> rfl

@[simp] theorem setReg_reg_other {r q : Reg} (h : q ≠ r) : (s.setReg r v).reg q = s.reg q := by
  cases r <;> cases q <;> first | rfl | exact absurd rfl h

@[simp] theorem setPc_pc : (s.setPc v).pc = v := rfl
@[simp] theorem setPc_zf : (s.setPc v).zf = s.zf := rfl
@[simp] theorem setPc_ram : (s.setPc v).ram = s.ram := rfl
@[simp] theorem setPc_halted : (s.setPc v).halted = s.halted := rfl
@[simp] theorem setPc_reg : (s.setPc v).reg r = s.reg r := by cases r <;> rfl
@[simp] theorem setPc_readCell : (s.setPc v).readCell addr = s.readCell addr := rfl

@[simp] theorem advance_pc : (s.advance len).pc = succ s.pc len := rfl
@[simp] theorem advance_zf : (s.advance len).zf = s.zf := rfl
@[simp] theorem advance_ram : (s.advance len).ram = s.ram := rfl
@[simp] theorem advance_halted : (s.advance len).halted = s.halted := rfl
@[simp] theorem advance_reg : (s.advance len).reg r = s.reg r := by cases r <;> rfl
@[simp] theorem advance_readCell : (s.advance len).readCell addr = s.readCell addr := rfl

@[simp] theorem setZf_pc : (s.setZf t).pc = s.pc := rfl
@[simp] theorem setZf_zf : (s.setZf t).zf = t := rfl
@[simp] theorem setZf_ram : (s.setZf t).ram = s.ram := rfl
@[simp] theorem setZf_halted : (s.setZf t).halted = s.halted := rfl
@[simp] theorem setZf_reg : (s.setZf t).reg r = s.reg r := by cases r <;> rfl
@[simp] theorem setZf_readCell : (s.setZf t).readCell addr = s.readCell addr := rfl

@[simp] theorem latchZf_alu : s.latchZf .alu v = s.setZf (sign v) := rfl
@[simp] theorem latchZf_mov : s.latchZf .mov v = s := rfl
@[simp] theorem latchZf_jxx : s.latchZf .jxx v = s := rfl

@[simp] theorem halt_pc : s.halt.pc = s.pc := rfl
@[simp] theorem halt_zf : s.halt.zf = s.zf := rfl
@[simp] theorem halt_ram : s.halt.ram = s.ram := rfl
@[simp] theorem halt_halted : s.halt.halted = true := rfl
@[simp] theorem halt_reg : s.halt.reg r = s.reg r := by cases r <;> rfl
@[simp] theorem halt_readCell : s.halt.readCell addr = s.readCell addr := rfl

@[simp] theorem writeCell_pc : (s.writeCell addr v).pc = s.pc := rfl
@[simp] theorem writeCell_zf : (s.writeCell addr v).zf = s.zf := rfl
@[simp] theorem writeCell_halted : (s.writeCell addr v).halted = s.halted := rfl
@[simp] theorem writeCell_reg : (s.writeCell addr v).reg r = s.reg r := by cases r <;> rfl
@[simp] theorem writeCell_ram : (s.writeCell addr v).ram = Memory.insert s.ram (addrIndex addr) v := rfl

/-- Two states are one when their fields are. -/
theorem State.ext_fields {s t : State} (h1 : s.rz = t.rz) (h2 : s.r0 = t.r0) (h3 : s.r1 = t.r1)
    (h4 : s.pc = t.pc) (h5 : s.zf = t.zf) (h6 : s.ram = t.ram) (h7 : s.halted = t.halted) : s = t := by
  cases s; cases t; simp_all

end Sys2Proof.Machine
end

