-- ==== Sys2Proof/Laws/Memory.lean ====
section
/-! SUPPORT. Reading after writing, and the canonical form of RAM. -/

namespace Sys2Proof.Machine

theorem lookup_insert_same (m : Memory) (k : Nat) (v : Tryte) : Memory.lookup (Memory.insert m k v) k = some v := by
  induction m with
  | nil => simp [Memory.insert, Memory.lookup]
  | cons e rest ih =>
    obtain ⟨k', v'⟩ := e
    simp only [Memory.insert]
    split
    · simp [Memory.lookup]
    · split
      · simp [Memory.lookup]
      · simp [Memory.lookup, *]

theorem lookup_insert_other (m : Memory) {k j : Nat} (v : Tryte) (h : j ≠ k) :
    Memory.lookup (Memory.insert m k v) j = Memory.lookup m j := by
  induction m with
  | nil => simp [Memory.insert, Memory.lookup, h]
  | cons e rest ih =>
    obtain ⟨k', v'⟩ := e
    simp only [Memory.insert]
    split
    · simp [Memory.lookup, h]
    · split
      · next hk => subst hk; simp [Memory.lookup, h]
      · simp [Memory.lookup, ih]

/-- A listed index has a value. -/
theorem lookup_isSome_of_mem (m : Memory) (k : Nat) (h : k ∈ m.map Prod.fst) : (Memory.lookup m k).isSome = true := by
  induction m with
  | nil => simp at h
  | cons e rest ih =>
    obtain ⟨k', v'⟩ := e
    simp only [Memory.lookup]
    split
    · rfl
    · next hne =>
      simp only [List.map_cons, List.mem_cons] at h
      exact ih (h.resolve_left hne)

/-- The indices after an insertion are those before it and the one inserted. -/
theorem mem_keys_insert (m : Memory) (k : Nat) (v : Tryte) (j : Nat) :
    j ∈ (Memory.insert m k v).map Prod.fst ↔ j = k ∨ j ∈ m.map Prod.fst := by
  induction m with
  | nil => simp [Memory.insert]
  | cons e rest ih =>
    obtain ⟨k', v'⟩ := e
    simp only [Memory.insert]
    split
    · simp
    · split
      · next hk => subst hk; simp
      · simp only [List.map_cons, List.mem_cons, ih]; tauto

/-- An insertion below 729 keeps the canonical form. -/
theorem insert_wf (m : Memory) (k : Nat) (v : Tryte) (hk : k < 729) (hm : Memory.wf m) :
    Memory.wf (Memory.insert m k v) := by
  refine ⟨?_, fun j hj => ?_⟩
  · obtain ⟨hs, -⟩ := hm
    induction m with
    | nil => simp [Memory.insert]
    | cons e rest ih =>
      obtain ⟨k', v'⟩ := e
      simp only [List.map_cons, List.pairwise_cons] at hs
      simp only [Memory.insert]
      split
      · next hlt =>
        simp only [List.map_cons, List.pairwise_cons, List.mem_cons]
        refine ⟨?_, hs⟩
        rintro j (rfl | hj)
        · exact hlt
        · exact lt_trans hlt (hs.1 j hj)
      · next hnlt =>
        split
        · next heq => subst heq; simpa only [List.map_cons, List.pairwise_cons] using hs
        · next hne =>
          simp only [List.map_cons, List.pairwise_cons]
          refine ⟨fun j hj => ?_, ih hs.2⟩
          rcases (mem_keys_insert rest k v j).mp hj with rfl | hj
          · omega
          · exact hs.1 j hj
  · rcases (mem_keys_insert m k v j).mp hj with rfl | hj
    · exact hk
    · exact hm.2 j hj

/-- Storing keeps the canonical form of RAM. -/
theorem writeCell_wf (s : State) (addr v : Tryte) (h : Memory.wf s.ram) : Memory.wf (s.writeCell addr v).ram :=
  insert_wf s.ram (addrIndex addr) v (addrIndex_lt addr) h

/-- A cell just written reads as what was written. -/
@[simp] theorem writeCell_readCell_same (s : State) (addr v : Tryte) :
    (s.writeCell addr v).readCell addr = some v :=
  lookup_insert_same s.ram (addrIndex addr) v

/-- Writing a cell leaves every other cell alone. -/
@[simp] theorem writeCell_readCell_other (s : State) {addr a : Tryte} (v : Tryte) (h : a ≠ addr) :
    (s.writeCell addr v).readCell a = s.readCell a :=
  lookup_insert_other s.ram v fun hk => h (addrIndex_inj.mp hk)

end Sys2Proof.Machine
end

