-- ==== Sys2Proof/Laws/Ops.lean ====
section
/-! SUPPORT. For each shared operation, what its answer can be, said once, so that a proof about an instruction
cites it instead of unfolding the operation. -/

namespace Sys2Proof.Machine

theorem readThen_eq_next {addr : Tryte} {s t : State} {k : Tryte → Result} :
    readThen addr s k = .next t ↔ ∃ v, s.readCell addr = some v ∧ k v = .next t := by
  unfold readThen; cases s.readCell addr <;> simp

theorem readThen_eq_fault {addr : Tryte} {s : State} {k : Tryte → Result} {f : Fault} :
    readThen addr s k = .fault f ↔
      (s.readCell addr = none ∧ f = .unwrittenCell addr) ∨ ∃ v, s.readCell addr = some v ∧ k v = .fault f := by
  unfold readThen; cases s.readCell addr <;> simp [eq_comm]

theorem readThen_eq_refused {addr : Tryte} {s : State} {k : Tryte → Result} {r : Refusal} :
    readThen addr s k = .refused r ↔ ∃ v, s.readCell addr = some v ∧ k v = .refused r := by
  unfold readThen; cases s.readCell addr <;> simp

@[simp] theorem readThen_some {addr v : Tryte} {s : State} {k : Tryte → Result} (h : s.readCell addr = some v) :
    readThen addr s k = k v := by
  unfold readThen; rw [h]

@[simp] theorem readThen_none {addr : Tryte} {s : State} {k : Tryte → Result} (h : s.readCell addr = none) :
    readThen addr s k = .fault (.unwrittenCell addr) := by
  unfold readThen; rw [h]

/-- An operand that is gone on with has a value, and the rest goes on with that value. -/
theorem operandThen_eq_next {o : Operand} {s t : State} {k : Tryte → Result} :
    operandThen o s k = .next t ↔ ∃ v, s.operand o = some v ∧ k v = .next t := by
  cases o <;> simp [operandThen, State.operand, readThen_eq_next]

theorem operandThen_some {o : Operand} {s : State} {k : Tryte → Result} {v : Tryte} (h : s.operand o = some v) :
    operandThen o s k = k v := by
  cases o <;> simp_all [State.operand, operandThen]

/-- The only operand without a value is a cell nothing has written, and it stops the instruction. -/
theorem operandThen_none {o : Operand} {s : State} (k : Tryte → Result) (h : s.operand o = none) :
    ∃ addr, o = .cell addr ∧ operandThen o s k = .fault (.unwrittenCell addr) := by
  cases o <;> simp_all [State.operand, operandThen]

/-- Under the model's `SMC = sequential` a store always goes through. -/
@[simp] theorem storeNext_config (addr v : Tryte) (len : Nat) (s : State) :
    storeNext Config.smc addr v len s = .next ((s.writeCell addr v).advance len) := rfl

/-- The state after a destination took its value and the counter moved on. -/
def Dest.after (d : Dest) (v : Tryte) (len : Nat) (s : State) : State :=
  match d with
  | .reg u => (s.setReg u v).advance len
  | .cell addr => (s.writeCell addr v).advance len

@[simp] theorem writeNext_config (d : Dest) (v : Tryte) (len : Nat) (s : State) :
    writeNext Config.smc d v len s = .next (d.after v len s) := by
  cases d <;> rfl

/-- A move that answers a next state moved the operand's value. -/
theorem movOperand_eq_next {src : Operand} {d : Dest} {len : Nat} {s t : State} :
    movOperand src d len s = .next t ↔ ∃ v, s.operand src = some v ∧ d.after v len s = t := by
  simp [movOperand, operandThen_eq_next]

/-- An ALU form that answers a next state read both operands, latched ZF from the result and stored it. -/
theorem aluOperands_eq_next {op : Tryte → Tryte → Tryte} {p q : Operand} {d : Dest} {len : Nat} {s t : State} :
    aluOperands op p q d len s = .next t ↔
      ∃ x, s.operand p = some x ∧ ∃ y, s.operand q = some y ∧
        d.after (op x y) len (s.setZf (sign (op x y))) = t := by
  simp [aluOperands, operandThen_eq_next]

theorem jumpTo_eq_next {target : Operand} {s t : State} :
    jumpTo target s = .next t ↔ ∃ v, s.operand target = some v ∧ s.setPc v = t := by
  simp [jumpTo, operandThen_eq_next]

/-- A simple-condition jump moves the instruction counter only: to the target if ZF is the condition, else on. -/
theorem simpleJump_eq_next {con : Trit} {target : Operand} {s t : State} :
    simpleJump con target s = .next t ↔
      (s.zf = con ∧ ∃ v, s.operand target = some v ∧ s.setPc v = t) ∨ (s.zf ≠ con ∧ s.advance 2 = t) := by
  unfold simpleJump State.zfIs
  by_cases h : s.zf = con <;> simp [h, jumpTo_eq_next]

/-- A complex-condition jump moves the instruction counter only: to the target its reading selects, else on. -/
theorem complexJump_eq_next {reading : Config.CjReading} {e : Trit} {a b : Operand} {s t : State} :
    complexJump reading e a b s = .next t ↔
      (∃ o, complexTarget reading e s.zf a b = some o ∧ ∃ v, s.operand o = some v ∧ s.setPc v = t) ∨
        (complexTarget reading e s.zf a b = none ∧ s.advance 3 = t) := by
  unfold complexJump
  cases h : complexTarget reading e s.zf a b <;> simp [jumpTo_eq_next]

/-- A fetch that goes on read a defined opcode at `pc` and as many immediates as its format has. -/
theorem fetchThen_eq_next {s t : State} {k : Instr → Result} :
    fetchThen s k = .next t ↔
      ∃ op, s.readCell s.pc = some op ∧
        ((∃ i, decodeOpcode op = some (.l1 i) ∧ k i = .next t) ∨
         (∃ mk i1, decodeOpcode op = some (.l2 mk) ∧ s.readCell (succ s.pc 1) = some i1 ∧ k (mk i1) = .next t) ∨
         (∃ mk i1 i2, decodeOpcode op = some (.l3 mk) ∧ s.readCell (succ s.pc 1) = some i1 ∧
            s.readCell (succ s.pc 2) = some i2 ∧ k (mk i1 i2) = .next t)) := by
  unfold fetchThen
  simp only [readThen_eq_next]
  refine exists_congr fun op => and_congr_right fun _ => ?_
  cases h : decodeOpcode op with
  | none => simp
  | some T => cases T <;> simp [readThen_eq_next]

/-- What a step can answer as a next state: a halted machine stays, a running one executes what it fetched. -/
theorem step_eq_next {s t : State} :
    step s = .next t ↔ (s.halted = true ∧ t = s) ∨ (s.halted = false ∧ fetchThen s (fun i => exec i s) = .next t) := by
  unfold step
  cases s.halted <;> simp [eq_comm]

/-- The data path stops for want of a value only on RAM output. -/
@[simp] theorem consume_some (v i1 : Tryte) (k : Tryte → Result) : consume (some v) i1 k = k v := rfl
@[simp] theorem consume_none (i1 : Tryte) (k : Tryte → Result) : consume none i1 k = .fault (.unwrittenCell i1) := rfl

@[simp] theorem finishAction_fault (op : Tryte) (f : Fault) : finishAction op (.fault f) = .fault f := rfl
@[simp] theorem finishAction_refused (op : Tryte) (r : Refusal) : finishAction op (.refused r) = .refused r := rfl

end Sys2Proof.Machine
end

