-- ==== Sys2Proof/Laws/Exec.lean ====
section
/-! SUPPORT. What each instruction can do, said once: `exec` of it answers a next state exactly as its line says. -/

namespace Sys2Proof.Machine

variable {s t : State}

theorem exec_movRegReg_eq_next {a u : Reg} : exec (.movRegReg a u) s = .next t ↔
    ∃ v, s.operand (.reg a) = some v ∧ Dest.after (.reg u) v 1 s = t :=
  by simp only [exec, execMovRegReg]; exact movOperand_eq_next

theorem exec_movMemReg_eq_next {i1 : Tryte} {u : Reg} : exec (.movMemReg i1 u) s = .next t ↔
    ∃ v, s.operand (.cell i1) = some v ∧ Dest.after (.reg u) v 2 s = t :=
  by simp only [exec, execMovMemReg]; exact movOperand_eq_next

theorem exec_movRegMem_eq_next {a : Reg} {i1 : Tryte} : exec (.movRegMem a i1) s = .next t ↔
    ∃ v, s.operand (.reg a) = some v ∧ Dest.after (.cell i1) v 2 s = t :=
  by simp only [exec, execMovRegMem]; exact movOperand_eq_next

theorem exec_movImmMem_eq_next {i1 i2 : Tryte} : exec (.movImmMem i1 i2) s = .next t ↔
    ∃ v, s.operand (.imm i2) = some v ∧ Dest.after (.cell i1) v 3 s = t :=
  by simp only [exec, execMovImmMem]; exact movOperand_eq_next

theorem exec_addRegRegMem_eq_next {a c : Reg} {i1 : Tryte} : exec (.addRegRegMem a c i1) s = .next t ↔
    ∃ x, s.operand (.reg a) = some x ∧ ∃ y, s.operand (.reg c) = some y ∧
      Dest.after (.cell i1) (addT x y) 2 (s.setZf (sign (addT x y))) = t :=
  by simp only [exec, execAddRegRegMem, aluRegRegMem]; exact aluOperands_eq_next

theorem exec_addMemRegReg_eq_next {i1 : Tryte} {c u : Reg} : exec (.addMemRegReg i1 c u) s = .next t ↔
    ∃ x, s.operand (.cell i1) = some x ∧ ∃ y, s.operand (.reg c) = some y ∧
      Dest.after (.reg u) (addT x y) 2 (s.setZf (sign (addT x y))) = t :=
  by simp only [exec, execAddMemRegReg, aluMemRegReg]; exact aluOperands_eq_next

theorem exec_addMemImmReg_eq_next {i1 i2 : Tryte} {u : Reg} : exec (.addMemImmReg i1 i2 u) s = .next t ↔
    ∃ x, s.operand (.cell i1) = some x ∧ ∃ y, s.operand (.imm i2) = some y ∧
      Dest.after (.reg u) (addT x y) 3 (s.setZf (sign (addT x y))) = t :=
  by simp only [exec, execAddMemImmReg, aluMemImmReg]; exact aluOperands_eq_next

theorem exec_subRegRegMem_eq_next {a c : Reg} {i1 : Tryte} : exec (.subRegRegMem a c i1) s = .next t ↔
    ∃ x, s.operand (.reg a) = some x ∧ ∃ y, s.operand (.reg c) = some y ∧
      Dest.after (.cell i1) (subT x y) 2 (s.setZf (sign (subT x y))) = t :=
  by simp only [exec, execSubRegRegMem, aluRegRegMem]; exact aluOperands_eq_next

theorem exec_subMemRegReg_eq_next {i1 : Tryte} {c u : Reg} : exec (.subMemRegReg i1 c u) s = .next t ↔
    ∃ x, s.operand (.cell i1) = some x ∧ ∃ y, s.operand (.reg c) = some y ∧
      Dest.after (.reg u) (subT x y) 2 (s.setZf (sign (subT x y))) = t :=
  by simp only [exec, execSubMemRegReg, aluMemRegReg]; exact aluOperands_eq_next

theorem exec_subMemImmReg_eq_next {i1 i2 : Tryte} {u : Reg} : exec (.subMemImmReg i1 i2 u) s = .next t ↔
    ∃ x, s.operand (.cell i1) = some x ∧ ∃ y, s.operand (.imm i2) = some y ∧
      Dest.after (.reg u) (subT x y) 3 (s.setZf (sign (subT x y))) = t :=
  by simp only [exec, execSubMemImmReg, aluMemImmReg]; exact aluOperands_eq_next

theorem exec_nandRegRegMem_eq_next {a c : Reg} {i1 : Tryte} : exec (.nandRegRegMem a c i1) s = .next t ↔
    ∃ x, s.operand (.reg a) = some x ∧ ∃ y, s.operand (.reg c) = some y ∧
      Dest.after (.cell i1) (nany x y) 2 (s.setZf (sign (nany x y))) = t :=
  by simp only [exec, execNandRegRegMem, aluRegRegMem]; exact aluOperands_eq_next

theorem exec_nandMemRegReg_eq_next {i1 : Tryte} {c u : Reg} : exec (.nandMemRegReg i1 c u) s = .next t ↔
    ∃ x, s.operand (.cell i1) = some x ∧ ∃ y, s.operand (.reg c) = some y ∧
      Dest.after (.reg u) (nany x y) 2 (s.setZf (sign (nany x y))) = t :=
  by simp only [exec, execNandMemRegReg, aluMemRegReg]; exact aluOperands_eq_next

theorem exec_nandMemImmReg_eq_next {i1 i2 : Tryte} {u : Reg} : exec (.nandMemImmReg i1 i2 u) s = .next t ↔
    ∃ x, s.operand (.cell i1) = some x ∧ ∃ y, s.operand (.imm i2) = some y ∧
      Dest.after (.reg u) (nany x y) 3 (s.setZf (sign (nany x y))) = t :=
  by simp only [exec, execNandMemImmReg, aluMemImmReg]; exact aluOperands_eq_next

theorem exec_mskRegRegMem_eq_next {a c : Reg} {i1 : Tryte} : exec (.mskRegRegMem a c i1) s = .next t ↔
    ∃ x, s.operand (.reg a) = some x ∧ ∃ y, s.operand (.reg c) = some y ∧
      Dest.after (.cell i1) (lmul x y) 2 (s.setZf (sign (lmul x y))) = t :=
  by simp only [exec, execMskRegRegMem, aluRegRegMem]; exact aluOperands_eq_next

theorem exec_mskMemRegReg_eq_next {i1 : Tryte} {c u : Reg} : exec (.mskMemRegReg i1 c u) s = .next t ↔
    ∃ x, s.operand (.cell i1) = some x ∧ ∃ y, s.operand (.reg c) = some y ∧
      Dest.after (.reg u) (lmul x y) 2 (s.setZf (sign (lmul x y))) = t :=
  by simp only [exec, execMskMemRegReg, aluMemRegReg]; exact aluOperands_eq_next

theorem exec_mskMemImmReg_eq_next {i1 i2 : Tryte} {u : Reg} : exec (.mskMemImmReg i1 i2 u) s = .next t ↔
    ∃ x, s.operand (.cell i1) = some x ∧ ∃ y, s.operand (.imm i2) = some y ∧
      Dest.after (.reg u) (lmul x y) 3 (s.setZf (sign (lmul x y))) = t :=
  by simp only [exec, execMskMemImmReg, aluMemImmReg]; exact aluOperands_eq_next

theorem exec_jmpMem_eq_next {i1 : Tryte} : exec (.jmpMem i1) s = .next t ↔
    ∃ v, s.operand (.cell i1) = some v ∧ s.setPc v = t :=
  by simp only [exec, execJmpMem]; exact jumpTo_eq_next

theorem exec_jmpImm_eq_next {i1 : Tryte} : exec (.jmpImm i1) s = .next t ↔
    ∃ v, s.operand (.imm i1) = some v ∧ s.setPc v = t :=
  by simp only [exec, execJmpImm]; exact jumpTo_eq_next

theorem exec_jlMem_eq_next {i1 : Tryte} : exec (.jlMem i1) s = .next t ↔
    (s.zf = .lam ∧ ∃ v, s.operand (.cell i1) = some v ∧ s.setPc v = t) ∨ (s.zf ≠ .lam ∧ s.advance 2 = t) :=
  by simp only [exec, execJlMem]; exact simpleJump_eq_next

theorem exec_jlImm_eq_next {i1 : Tryte} : exec (.jlImm i1) s = .next t ↔
    (s.zf = .lam ∧ ∃ v, s.operand (.imm i1) = some v ∧ s.setPc v = t) ∨ (s.zf ≠ .lam ∧ s.advance 2 = t) :=
  by simp only [exec, execJlImm]; exact simpleJump_eq_next

theorem exec_jeMem_eq_next {i1 : Tryte} : exec (.jeMem i1) s = .next t ↔
    (s.zf = .zero ∧ ∃ v, s.operand (.cell i1) = some v ∧ s.setPc v = t) ∨ (s.zf ≠ .zero ∧ s.advance 2 = t) :=
  by simp only [exec, execJeMem]; exact simpleJump_eq_next

theorem exec_jeImm_eq_next {i1 : Tryte} : exec (.jeImm i1) s = .next t ↔
    (s.zf = .zero ∧ ∃ v, s.operand (.imm i1) = some v ∧ s.setPc v = t) ∨ (s.zf ≠ .zero ∧ s.advance 2 = t) :=
  by simp only [exec, execJeImm]; exact simpleJump_eq_next

theorem exec_jgMem_eq_next {i1 : Tryte} : exec (.jgMem i1) s = .next t ↔
    (s.zf = .one ∧ ∃ v, s.operand (.cell i1) = some v ∧ s.setPc v = t) ∨ (s.zf ≠ .one ∧ s.advance 2 = t) :=
  by simp only [exec, execJgMem]; exact simpleJump_eq_next

theorem exec_jgImm_eq_next {i1 : Tryte} : exec (.jgImm i1) s = .next t ↔
    (s.zf = .one ∧ ∃ v, s.operand (.imm i1) = some v ∧ s.setPc v = t) ∨ (s.zf ≠ .one ∧ s.advance 2 = t) :=
  by simp only [exec, execJgImm]; exact simpleJump_eq_next

theorem exec_jleMemImm_eq_next {i1 i2 : Tryte} : exec (.jleMemImm i1 i2) s = .next t ↔
    (∃ o, complexTarget .threeWay .one s.zf (.cell i1) (.imm i2) = some o ∧
        ∃ v, s.operand o = some v ∧ s.setPc v = t) ∨
      (complexTarget .threeWay .one s.zf (.cell i1) (.imm i2) = none ∧ s.advance 3 = t) :=
  by simp only [exec, execJleMemImm]; exact complexJump_eq_next

theorem exec_jleImmImm_eq_next {i1 i2 : Tryte} : exec (.jleImmImm i1 i2) s = .next t ↔
    (∃ o, complexTarget .threeWay .one s.zf (.imm i1) (.imm i2) = some o ∧
        ∃ v, s.operand o = some v ∧ s.setPc v = t) ∨
      (complexTarget .threeWay .one s.zf (.imm i1) (.imm i2) = none ∧ s.advance 3 = t) :=
  by simp only [exec, execJleImmImm]; exact complexJump_eq_next

theorem exec_jleImmMem_eq_next {i1 i2 : Tryte} : exec (.jleImmMem i1 i2) s = .next t ↔
    (∃ o, complexTarget .threeWay .one s.zf (.imm i2) (.cell i1) = some o ∧
        ∃ v, s.operand o = some v ∧ s.setPc v = t) ∨
      (complexTarget .threeWay .one s.zf (.imm i2) (.cell i1) = none ∧ s.advance 3 = t) :=
  by simp only [exec, execJleImmMem]; exact complexJump_eq_next

theorem exec_jlgMemImm_eq_next {i1 i2 : Tryte} : exec (.jlgMemImm i1 i2) s = .next t ↔
    (∃ o, complexTarget .threeWay .zero s.zf (.cell i1) (.imm i2) = some o ∧
        ∃ v, s.operand o = some v ∧ s.setPc v = t) ∨
      (complexTarget .threeWay .zero s.zf (.cell i1) (.imm i2) = none ∧ s.advance 3 = t) :=
  by simp only [exec, execJlgMemImm]; exact complexJump_eq_next

theorem exec_jlgImmImm_eq_next {i1 i2 : Tryte} : exec (.jlgImmImm i1 i2) s = .next t ↔
    (∃ o, complexTarget .threeWay .zero s.zf (.imm i1) (.imm i2) = some o ∧
        ∃ v, s.operand o = some v ∧ s.setPc v = t) ∨
      (complexTarget .threeWay .zero s.zf (.imm i1) (.imm i2) = none ∧ s.advance 3 = t) :=
  by simp only [exec, execJlgImmImm]; exact complexJump_eq_next

theorem exec_jlgImmMem_eq_next {i1 i2 : Tryte} : exec (.jlgImmMem i1 i2) s = .next t ↔
    (∃ o, complexTarget .threeWay .zero s.zf (.imm i2) (.cell i1) = some o ∧
        ∃ v, s.operand o = some v ∧ s.setPc v = t) ∨
      (complexTarget .threeWay .zero s.zf (.imm i2) (.cell i1) = none ∧ s.advance 3 = t) :=
  by simp only [exec, execJlgImmMem]; exact complexJump_eq_next

theorem exec_jegMemImm_eq_next {i1 i2 : Tryte} : exec (.jegMemImm i1 i2) s = .next t ↔
    (∃ o, complexTarget .threeWay .lam s.zf (.cell i1) (.imm i2) = some o ∧
        ∃ v, s.operand o = some v ∧ s.setPc v = t) ∨
      (complexTarget .threeWay .lam s.zf (.cell i1) (.imm i2) = none ∧ s.advance 3 = t) :=
  by simp only [exec, execJegMemImm]; exact complexJump_eq_next

theorem exec_jegImmImm_eq_next {i1 i2 : Tryte} : exec (.jegImmImm i1 i2) s = .next t ↔
    (∃ o, complexTarget .threeWay .lam s.zf (.imm i1) (.imm i2) = some o ∧
        ∃ v, s.operand o = some v ∧ s.setPc v = t) ∨
      (complexTarget .threeWay .lam s.zf (.imm i1) (.imm i2) = none ∧ s.advance 3 = t) :=
  by simp only [exec, execJegImmImm]; exact complexJump_eq_next

theorem exec_jegImmMem_eq_next {i1 i2 : Tryte} : exec (.jegImmMem i1 i2) s = .next t ↔
    (∃ o, complexTarget .threeWay .lam s.zf (.imm i2) (.cell i1) = some o ∧
        ∃ v, s.operand o = some v ∧ s.setPc v = t) ∨
      (complexTarget .threeWay .lam s.zf (.imm i2) (.cell i1) = none ∧ s.advance 3 = t) :=
  by simp only [exec, execJegImmMem]; exact complexJump_eq_next

theorem exec_finish_eq_next : exec .finish s = .next t ↔
    (s.setPc Config.kConst).halt = t :=
  by simp [exec, execFinish]

theorem exec_reboot_eq_next : exec .reboot s = .next t ↔
    s.setPc Config.kConst = t :=
  by simp [exec, execReboot]

end Sys2Proof.Machine
end

