-- ==== Sys2Proof/Laws/PerInstr.lean ====
section
/-! SUPPORT. Statements made of every instruction as syntax, one lemma for each constructor. -/

namespace Sys2Proof.Laws.EncodeFormat

/-- The trytes the encoder gives are the words of exactly one instruction by rules R62 and R71: a defined opcode
and as many immediates as its length asks for. -/
def Statement (i : Instr) : Prop := wellFormedWords (encode i) = true

theorem movRegReg (a u : Reg) : Statement (.movRegReg a u) := by cases a <;> cases u <;> rfl
theorem movMemReg (i1 : Tryte) (u : Reg) : Statement (.movMemReg i1 u) := by cases u <;> rfl
theorem movRegMem (a : Reg) (i1 : Tryte) : Statement (.movRegMem a i1) := by cases a <;> rfl
theorem movImmMem (i1 i2 : Tryte) : Statement (.movImmMem i1 i2) := by rfl
theorem addRegRegMem (a c : Reg) (i1 : Tryte) : Statement (.addRegRegMem a c i1) := by cases a <;> cases c <;> rfl
theorem addMemRegReg (i1 : Tryte) (c u : Reg) : Statement (.addMemRegReg i1 c u) := by cases c <;> cases u <;> rfl
theorem addMemImmReg (i1 i2 : Tryte) (u : Reg) : Statement (.addMemImmReg i1 i2 u) := by cases u <;> rfl
theorem subRegRegMem (a c : Reg) (i1 : Tryte) : Statement (.subRegRegMem a c i1) := by cases a <;> cases c <;> rfl
theorem subMemRegReg (i1 : Tryte) (c u : Reg) : Statement (.subMemRegReg i1 c u) := by cases c <;> cases u <;> rfl
theorem subMemImmReg (i1 i2 : Tryte) (u : Reg) : Statement (.subMemImmReg i1 i2 u) := by cases u <;> rfl
theorem nandRegRegMem (a c : Reg) (i1 : Tryte) : Statement (.nandRegRegMem a c i1) := by cases a <;> cases c <;> rfl
theorem nandMemRegReg (i1 : Tryte) (c u : Reg) : Statement (.nandMemRegReg i1 c u) := by cases c <;> cases u <;> rfl
theorem nandMemImmReg (i1 i2 : Tryte) (u : Reg) : Statement (.nandMemImmReg i1 i2 u) := by cases u <;> rfl
theorem mskRegRegMem (a c : Reg) (i1 : Tryte) : Statement (.mskRegRegMem a c i1) := by cases a <;> cases c <;> rfl
theorem mskMemRegReg (i1 : Tryte) (c u : Reg) : Statement (.mskMemRegReg i1 c u) := by cases c <;> cases u <;> rfl
theorem mskMemImmReg (i1 i2 : Tryte) (u : Reg) : Statement (.mskMemImmReg i1 i2 u) := by cases u <;> rfl
theorem jmpMem (i1 : Tryte) : Statement (.jmpMem i1) := by rfl
theorem jmpImm (i1 : Tryte) : Statement (.jmpImm i1) := by rfl
theorem jlMem (i1 : Tryte) : Statement (.jlMem i1) := by rfl
theorem jlImm (i1 : Tryte) : Statement (.jlImm i1) := by rfl
theorem jeMem (i1 : Tryte) : Statement (.jeMem i1) := by rfl
theorem jeImm (i1 : Tryte) : Statement (.jeImm i1) := by rfl
theorem jgMem (i1 : Tryte) : Statement (.jgMem i1) := by rfl
theorem jgImm (i1 : Tryte) : Statement (.jgImm i1) := by rfl
theorem jleMemImm (i1 i2 : Tryte) : Statement (.jleMemImm i1 i2) := by rfl
theorem jleImmImm (i1 i2 : Tryte) : Statement (.jleImmImm i1 i2) := by rfl
theorem jleImmMem (i1 i2 : Tryte) : Statement (.jleImmMem i1 i2) := by rfl
theorem jlgMemImm (i1 i2 : Tryte) : Statement (.jlgMemImm i1 i2) := by rfl
theorem jlgImmImm (i1 i2 : Tryte) : Statement (.jlgImmImm i1 i2) := by rfl
theorem jlgImmMem (i1 i2 : Tryte) : Statement (.jlgImmMem i1 i2) := by rfl
theorem jegMemImm (i1 i2 : Tryte) : Statement (.jegMemImm i1 i2) := by rfl
theorem jegImmImm (i1 i2 : Tryte) : Statement (.jegImmImm i1 i2) := by rfl
theorem jegImmMem (i1 i2 : Tryte) : Statement (.jegImmMem i1 i2) := by rfl
theorem finish : Statement .finish := by rfl
theorem reboot : Statement .reboot := by rfl

end Sys2Proof.Laws.EncodeFormat
end

