-- ==== Sys2Proof/Machine/Assembly.lean ====
section
/-! DEFINITION. The assembly notation of the source's instruction table, which the spec adopts as the syntax
(30_encoding.md rules R74, R75, D21; log entry 29). Immediates are written as six-character tryte literals. -/

namespace Sys2Proof.Machine

/-- A trit's character (R3). -/
def tritText (t : Trit) : String :=
  match t with
  | .lam => "λ"
  | .zero => "0"
  | .one => "1"

/-- A tryte literal, T5 first (R5). -/
def tryteText (t : Tryte) : String :=
  tritText t.t5 ++ tritText t.t4 ++ tritText t.t3 ++ tritText t.t2 ++ tritText t.t1 ++ tritText t.t0

/-- A register's name (R20). -/
def regText (r : Reg) : String :=
  match r with
  | .rz => "RZ"
  | .r0 => "R0"
  | .r1 => "R1"

/-- The operand `[n]`, the cell at address `n` (R74). -/
def cellText (addr : Tryte) : String := "[" ++ tryteText addr ++ "]"

/-- `name p, q → d`, the shape of the ALU instructions (R74). -/
def arrowText (name p q d : String) : String := name ++ " " ++ p ++ ", " ++ q ++ " → " ++ d

/-- An instruction in the source's notation: the operand in brackets is always i1 (R74). -/
def asmText (i : Instr) : String :=
  match i with
  | .movRegReg a u => "mov " ++ regText a ++ " → " ++ regText u
  | .movMemReg i1 u => "mov " ++ cellText i1 ++ " → " ++ regText u
  | .movRegMem a i1 => "mov " ++ regText a ++ " → " ++ cellText i1
  | .movImmMem i1 i2 => "mov " ++ tryteText i2 ++ " → " ++ cellText i1
  | .addRegRegMem a c i1 => arrowText "add" (regText a) (regText c) (cellText i1)
  | .addMemRegReg i1 c u => arrowText "add" (cellText i1) (regText c) (regText u)
  | .addMemImmReg i1 i2 u => arrowText "add" (cellText i1) (tryteText i2) (regText u)
  | .subRegRegMem a c i1 => arrowText "sub" (regText a) (regText c) (cellText i1)
  | .subMemRegReg i1 c u => arrowText "sub" (cellText i1) (regText c) (regText u)
  | .subMemImmReg i1 i2 u => arrowText "sub" (cellText i1) (tryteText i2) (regText u)
  | .nandRegRegMem a c i1 => arrowText "nand" (regText a) (regText c) (cellText i1)
  | .nandMemRegReg i1 c u => arrowText "nand" (cellText i1) (regText c) (regText u)
  | .nandMemImmReg i1 i2 u => arrowText "nand" (cellText i1) (tryteText i2) (regText u)
  | .mskRegRegMem a c i1 => arrowText "msk" (regText a) (regText c) (cellText i1)
  | .mskMemRegReg i1 c u => arrowText "msk" (cellText i1) (regText c) (regText u)
  | .mskMemImmReg i1 i2 u => arrowText "msk" (cellText i1) (tryteText i2) (regText u)
  | .jmpMem i1 => "jmp " ++ cellText i1
  | .jmpImm i1 => "jmp " ++ tryteText i1
  | .jlMem i1 => "jl " ++ cellText i1
  | .jlImm i1 => "jl " ++ tryteText i1
  | .jeMem i1 => "je " ++ cellText i1
  | .jeImm i1 => "je " ++ tryteText i1
  | .jgMem i1 => "jg " ++ cellText i1
  | .jgImm i1 => "jg " ++ tryteText i1
  | .jleMemImm i1 i2 => "jle " ++ cellText i1 ++ ", " ++ tryteText i2
  | .jleImmImm i1 i2 => "jle " ++ tryteText i1 ++ ", " ++ tryteText i2
  | .jleImmMem i1 i2 => "jle " ++ tryteText i2 ++ ", " ++ cellText i1
  | .jlgMemImm i1 i2 => "jlg " ++ cellText i1 ++ ", " ++ tryteText i2
  | .jlgImmImm i1 i2 => "jlg " ++ tryteText i1 ++ ", " ++ tryteText i2
  | .jlgImmMem i1 i2 => "jlg " ++ tryteText i2 ++ ", " ++ cellText i1
  | .jegMemImm i1 i2 => "jeg " ++ cellText i1 ++ ", " ++ tryteText i2
  | .jegImmImm i1 i2 => "jeg " ++ tryteText i1 ++ ", " ++ tryteText i2
  | .jegImmMem i1 i2 => "jeg " ++ tryteText i2 ++ ", " ++ cellText i1
  | .finish => "finish"
  | .reboot => "reboot"

end Sys2Proof.Machine
end

