-- ==== Sys2Proof/Tests/Slice0.lean ====
section
/-! SUPPORT. Tests. The expected results are the vectors of 95_test_vectors.md, whose section stands in each comment, or
are worked out by hand from the rule that is named; `L`, `O` and `I` write the trits λ, 0 and 1. -/

namespace Sys2Proof.Tests

open Sys2Proof.Machine Sys2Proof.Safety

abbrev L := Trit.lam
abbrev O := Trit.zero
abbrev I := Trit.one

/-- A small running state: the counter, RZ, R0, R1, ZF, and the cells that have been written. -/
def small (pc rz r0 r1 : Tryte) (zf : Trit) (cells : List (Tryte × Tryte)) : State :=
  cells.foldl (fun s c => s.writeCell c.1 c.2)
    { rz := rz, r0 := r0, r1 := r1, pc := pc, zf := zf, ram := [], halted := false }

/-- A small state with an instruction's words at the counter. -/
def running (pc rz r0 r1 : Tryte) (zf : Trit) (cells : List (Tryte × Tryte)) (ws : List Tryte) : State :=
  (small pc rz r0 r1 zf cells).load pc ws

/-- What a result shows of its next state, if it has one. -/
def seen {α : Type} (r : Result) (f : State → α) : Option α :=
  match r with
  | .next t => some (f t)
  | _ => none

/-- The name a result stops under, if it stops. -/
def stop (r : Result) : Option (Fault ⊕ Refusal) :=
  match r with
  | .next _ => none
  | .fault f => some (.inl f)
  | .refused x => some (.inr x)

/-- What the decoder answers, in a form that can be compared. -/
def decoded (ws : List Tryte) : DecodeError ⊕ (Instr × List Tryte) :=
  match decode ws with
  | .ok p => .inr p
  | .error e => .inl e

/-! Ill-formed words (30_encoding.md rules R62, R71; 95_test_vectors.md section 2.3, undefined opcodes). -/

theorem test_wellFormed_refuses_mov_t3 : definedMov ⟨I, L, O, O, O, O⟩ = false ∧
    wellFormedWords [⟨I, L, O, O, O, O⟩, Tryte.zeros] = false := by decide
theorem test_wellFormed_refuses_mov_t2 : definedMov ⟨I, L, L, I, O, O⟩ = false ∧
    wellFormedWords [⟨I, L, L, I, O, O⟩] = false := by decide
theorem test_wellFormed_refuses_mov_mem_t1 : definedMov ⟨I, O, L, O, I, O⟩ = false ∧
    wellFormedWords [⟨I, O, L, O, I, O⟩, Tryte.zeros] = false := by decide
theorem test_wellFormed_refuses_mov_reg_mem_t0 : definedMov ⟨I, L, I, O, I, I⟩ = false ∧
    wellFormedWords [⟨I, L, I, O, I, I⟩, Tryte.zeros] = false := by decide
theorem test_wellFormed_refuses_mov_imm_t0 : definedMov ⟨I, I, I, O, O, I⟩ = false ∧
    wellFormedWords [⟨I, I, I, O, O, I⟩, Tryte.zeros, Tryte.zeros] = false := by decide
theorem test_wellFormed_refuses_mov_t4_zero_t3_one : definedMov ⟨I, O, I, O, O, O⟩ = false ∧
    wellFormedWords [⟨I, O, I, O, O, O⟩, Tryte.zeros] = false := by decide
theorem test_wellFormed_refuses_alu_t2_one : definedAlu ⟨O, L, L, I, O, I⟩ = false ∧
    wellFormedWords [⟨O, L, L, I, O, I⟩, Tryte.zeros] = false := by decide
theorem test_wellFormed_refuses_nand_negated : definedAlu ⟨O, L, O, L, O, I⟩ = false ∧
    wellFormedWords [⟨O, L, O, L, O, I⟩, Tryte.zeros] = false := by decide
theorem test_wellFormed_refuses_msk_negated : definedAlu ⟨O, O, I, L, O, O⟩ = false ∧
    wellFormedWords [⟨O, O, I, L, O, O⟩, Tryte.zeros] = false := by decide
theorem test_wellFormed_refuses_alu_imm_t1 : definedAlu ⟨O, I, L, O, I, O⟩ = false ∧
    wellFormedWords [⟨O, I, L, O, I, O⟩, Tryte.zeros, Tryte.zeros] = false := by decide
theorem test_wellFormed_refuses_jmp_no_source : definedJxx ⟨L, O, O, O, O, O⟩ = false ∧
    wellFormedWords [⟨L, O, O, O, O, O⟩, Tryte.zeros] = false := by decide
theorem test_wellFormed_refuses_jmp_register : definedJxx ⟨L, O, I, O, O, O⟩ = false ∧
    wellFormedWords [⟨L, O, I, O, O, O⟩, Tryte.zeros] = false := by decide
theorem test_wellFormed_refuses_complex_form : definedJxx ⟨L, O, I, L, I, I⟩ = false ∧
    wellFormedWords [⟨L, O, I, L, I, I⟩, Tryte.zeros, Tryte.zeros] = false := by decide
theorem test_wellFormed_refuses_finish_t0 : definedJxx ⟨L, I, I, O, O, I⟩ = false ∧
    wellFormedWords [⟨L, I, I, O, O, I⟩] = false := by decide
theorem test_wellFormed_refuses_reboot_t3 : definedJxx ⟨L, L, O, O, O, O⟩ = false ∧
    wellFormedWords [⟨L, L, O, O, O, O⟩] = false := by decide
theorem test_wellFormed_refuses_no_words : wellFormedWords [] = false := by decide
theorem test_wellFormed_refuses_missing_immediate :
    wellFormedWords [⟨I, I, I, O, O, O⟩, Tryte.zeros] = false := by decide
theorem test_wellFormed_refuses_extra_immediate : wellFormedWords [⟨L, I, I, O, O, O⟩, Tryte.zeros] = false := by decide
theorem test_wellFormed_takes_three_words :
    wellFormedWords [⟨I, I, I, O, O, O⟩, Tryte.zeros, Tryte.ones] = true := by decide

/-! Decoding, one word for every constructor (95_test_vectors.md section 2.3); i1 is 111111 and i2 λλλλλλ, and a
tryte 000000 that is no part of the instruction stands after it. -/

theorem test_decode_movRegReg :
    decoded [⟨I, L, L, O, I, L⟩, Tryte.zeros] = .inr (.movRegReg .r1 .rz, [Tryte.zeros]) := by decide
theorem test_decode_movMemReg :
    decoded [⟨I, O, L, O, O, L⟩, Tryte.ones, Tryte.zeros] = .inr (.movMemReg Tryte.ones .rz, [Tryte.zeros]) := by decide
theorem test_decode_movRegMem :
    decoded [⟨I, L, I, O, L, O⟩, Tryte.ones, Tryte.zeros] = .inr (.movRegMem .rz Tryte.ones, [Tryte.zeros]) := by decide
theorem test_decode_movImmMem :
    decoded [⟨I, I, I, O, O, O⟩, Tryte.ones, Tryte.lams, Tryte.zeros] = .inr (.movImmMem Tryte.ones Tryte.lams, [Tryte.zeros]) := by decide
theorem test_decode_addRegRegMem :
    decoded [⟨O, L, L, O, I, O⟩, Tryte.ones, Tryte.zeros] = .inr (.addRegRegMem .r0 .r1 Tryte.ones, [Tryte.zeros]) := by decide
theorem test_decode_addMemRegReg :
    decoded [⟨O, O, L, O, O, I⟩, Tryte.ones, Tryte.zeros] = .inr (.addMemRegReg Tryte.ones .r0 .r1, [Tryte.zeros]) := by decide
theorem test_decode_addMemImmReg :
    decoded [⟨O, I, L, O, O, I⟩, Tryte.ones, Tryte.lams, Tryte.zeros] = .inr (.addMemImmReg Tryte.ones Tryte.lams .r1, [Tryte.zeros]) := by decide
theorem test_decode_subRegRegMem :
    decoded [⟨O, L, L, L, O, I⟩, Tryte.ones, Tryte.zeros] = .inr (.subRegRegMem .r1 .r0 Tryte.ones, [Tryte.zeros]) := by decide
theorem test_decode_subMemRegReg :
    decoded [⟨O, O, L, L, O, I⟩, Tryte.ones, Tryte.zeros] = .inr (.subMemRegReg Tryte.ones .r0 .r1, [Tryte.zeros]) := by decide
theorem test_decode_subMemImmReg :
    decoded [⟨O, I, L, L, O, L⟩, Tryte.ones, Tryte.lams, Tryte.zeros] = .inr (.subMemImmReg Tryte.ones Tryte.lams .rz, [Tryte.zeros]) := by decide
theorem test_decode_nandRegRegMem :
    decoded [⟨O, L, O, O, O, L⟩, Tryte.ones, Tryte.zeros] = .inr (.nandRegRegMem .rz .r0 Tryte.ones, [Tryte.zeros]) := by decide
theorem test_decode_nandMemRegReg :
    decoded [⟨O, O, O, O, I, O⟩, Tryte.ones, Tryte.zeros] = .inr (.nandMemRegReg Tryte.ones .r1 .r0, [Tryte.zeros]) := by decide
theorem test_decode_nandMemImmReg :
    decoded [⟨O, I, O, O, O, I⟩, Tryte.ones, Tryte.lams, Tryte.zeros] = .inr (.nandMemImmReg Tryte.ones Tryte.lams .r1, [Tryte.zeros]) := by decide
theorem test_decode_mskRegRegMem :
    decoded [⟨O, L, I, O, I, O⟩, Tryte.ones, Tryte.zeros] = .inr (.mskRegRegMem .r0 .r1 Tryte.ones, [Tryte.zeros]) := by decide
theorem test_decode_mskMemRegReg :
    decoded [⟨O, O, I, O, L, O⟩, Tryte.ones, Tryte.zeros] = .inr (.mskMemRegReg Tryte.ones .rz .r0, [Tryte.zeros]) := by decide
theorem test_decode_mskMemImmReg :
    decoded [⟨O, I, I, O, O, I⟩, Tryte.ones, Tryte.lams, Tryte.zeros] = .inr (.mskMemImmReg Tryte.ones Tryte.lams .r1, [Tryte.zeros]) := by decide
theorem test_decode_jmpMem :
    decoded [⟨L, O, L, O, O, O⟩, Tryte.ones, Tryte.zeros] = .inr (.jmpMem Tryte.ones, [Tryte.zeros]) := by decide
theorem test_decode_jmpImm :
    decoded [⟨L, O, I, O, O, L⟩, Tryte.ones, Tryte.zeros] = .inr (.jmpImm Tryte.ones, [Tryte.zeros]) := by decide
theorem test_decode_jlMem :
    decoded [⟨L, O, L, I, L, O⟩, Tryte.ones, Tryte.zeros] = .inr (.jlMem Tryte.ones, [Tryte.zeros]) := by decide
theorem test_decode_jlImm :
    decoded [⟨L, O, I, I, L, L⟩, Tryte.ones, Tryte.zeros] = .inr (.jlImm Tryte.ones, [Tryte.zeros]) := by decide
theorem test_decode_jeMem :
    decoded [⟨L, O, L, I, O, O⟩, Tryte.ones, Tryte.zeros] = .inr (.jeMem Tryte.ones, [Tryte.zeros]) := by decide
theorem test_decode_jeImm :
    decoded [⟨L, O, I, I, O, L⟩, Tryte.ones, Tryte.zeros] = .inr (.jeImm Tryte.ones, [Tryte.zeros]) := by decide
theorem test_decode_jgMem :
    decoded [⟨L, O, L, I, I, O⟩, Tryte.ones, Tryte.zeros] = .inr (.jgMem Tryte.ones, [Tryte.zeros]) := by decide
theorem test_decode_jgImm :
    decoded [⟨L, O, I, I, I, L⟩, Tryte.ones, Tryte.zeros] = .inr (.jgImm Tryte.ones, [Tryte.zeros]) := by decide
theorem test_decode_jleMemImm :
    decoded [⟨L, O, O, L, I, I⟩, Tryte.ones, Tryte.lams, Tryte.zeros] = .inr (.jleMemImm Tryte.ones Tryte.lams, [Tryte.zeros]) := by decide
theorem test_decode_jleImmImm :
    decoded [⟨L, O, I, L, I, O⟩, Tryte.ones, Tryte.lams, Tryte.zeros] = .inr (.jleImmImm Tryte.ones Tryte.lams, [Tryte.zeros]) := by decide
theorem test_decode_jleImmMem :
    decoded [⟨L, O, L, L, I, I⟩, Tryte.ones, Tryte.lams, Tryte.zeros] = .inr (.jleImmMem Tryte.ones Tryte.lams, [Tryte.zeros]) := by decide
theorem test_decode_jlgMemImm :
    decoded [⟨L, O, O, L, O, I⟩, Tryte.ones, Tryte.lams, Tryte.zeros] = .inr (.jlgMemImm Tryte.ones Tryte.lams, [Tryte.zeros]) := by decide
theorem test_decode_jlgImmImm :
    decoded [⟨L, O, I, L, O, O⟩, Tryte.ones, Tryte.lams, Tryte.zeros] = .inr (.jlgImmImm Tryte.ones Tryte.lams, [Tryte.zeros]) := by decide
theorem test_decode_jlgImmMem :
    decoded [⟨L, O, L, L, O, I⟩, Tryte.ones, Tryte.lams, Tryte.zeros] = .inr (.jlgImmMem Tryte.ones Tryte.lams, [Tryte.zeros]) := by decide
theorem test_decode_jegMemImm :
    decoded [⟨L, O, O, L, L, I⟩, Tryte.ones, Tryte.lams, Tryte.zeros] = .inr (.jegMemImm Tryte.ones Tryte.lams, [Tryte.zeros]) := by decide
theorem test_decode_jegImmImm :
    decoded [⟨L, O, I, L, L, O⟩, Tryte.ones, Tryte.lams, Tryte.zeros] = .inr (.jegImmImm Tryte.ones Tryte.lams, [Tryte.zeros]) := by decide
theorem test_decode_jegImmMem :
    decoded [⟨L, O, L, L, L, I⟩, Tryte.ones, Tryte.lams, Tryte.zeros] = .inr (.jegImmMem Tryte.ones Tryte.lams, [Tryte.zeros]) := by decide
theorem test_decode_finish :
    decoded [⟨L, I, I, O, O, O⟩, Tryte.zeros] = .inr (.finish, [Tryte.zeros]) := by decide
theorem test_decode_reboot :
    decoded [⟨L, L, I, O, O, O⟩, Tryte.zeros] = .inr (.reboot, [Tryte.zeros]) := by decide
theorem test_decode_undefined : decoded [⟨O, L, L, I, O, I⟩] = .inl (.undefinedOpcode ⟨O, L, L, I, O, I⟩) := by decide
theorem test_decode_nothing : decoded [] = .inl .noOpcode := by decide
theorem test_decode_missing_immediate :
    decoded [⟨I, I, I, O, O, O⟩, Tryte.zeros] = .inl (.missingImmediate ⟨I, I, I, O, O, O⟩) := by decide

/-! Trytes and addresses (sections 2.1, 2.2). -/

theorem test_val : val ⟨O, I, I, L, O, I⟩ = 100 ∧ val ⟨L, O, O, O, O, L⟩ = -244 ∧ val ⟨I, L, I, I, I, L⟩ = 200 := by decide
theorem test_tryte : tryte 365 = Tryte.lams ∧ tryte (-365) = Tryte.ones ∧ tryte 728 = ⟨O, O, O, O, O, L⟩ ∧
    tryte 729 = Tryte.zeros ∧ tryte 53 = ⟨O, I, L, O, O, L⟩ := by decide
theorem test_sign : sign ⟨I, L, L, L, L, L⟩ = I ∧ sign ⟨L, I, I, I, I, I⟩ = L ∧ sign Tryte.zeros = O := by decide
theorem test_neg : negT ⟨L, O, I, L, O, I⟩ = ⟨I, O, L, I, O, L⟩ ∧ negT Tryte.ones = Tryte.lams := by decide
theorem test_succ : succ ⟨O, O, O, I, I, I⟩ 1 = ⟨O, O, I, L, L, L⟩ ∧ succ ⟨I, I, I, I, I, O⟩ 2 = Tryte.lams ∧
    succ Tryte.ones 3 = ⟨L, L, L, L, L, I⟩ ∧ succ ⟨O, O, O, O, O, L⟩ 1 = Tryte.zeros := by decide
theorem test_add_wraps : addT Tryte.ones Tryte.ones = ⟨O, O, O, O, O, L⟩ ∧ addT Tryte.lams ⟨O, O, O, O, O, L⟩ = Tryte.ones ∧
    addT ⟨O, O, O, I, I, I⟩ ⟨O, O, I, L, L, L⟩ = ⟨O, O, I, O, O, O⟩ := by decide
theorem test_sub_wraps : subT ⟨L, I, L, L, L, I⟩ ⟨I, L, I, I, I, L⟩ = ⟨I, I, O, I, L, L⟩ ∧ subT Tryte.zeros Tryte.lams = Tryte.ones := by
  decide
theorem test_nanyStar : nanyStar ⟨L, L, L, O, O, O⟩ ⟨L, O, I, L, O, I⟩ = ⟨I, I, O, I, O, L⟩ ∧
    nanyStar ⟨I, I, I, O, O, O⟩ ⟨L, O, I, L, O, I⟩ = ⟨O, L, L, I, O, L⟩ := by decide
theorem test_lmulStar : lmulStar ⟨L, O, L, O, I, I⟩ ⟨L, O, I, L, O, I⟩ = ⟨I, O, L, O, O, I⟩ ∧
    lmulStar ⟨L, O, I, L, O, I⟩ ⟨O, O, O, I, I, I⟩ = ⟨O, O, O, L, O, I⟩ := by decide
theorem test_encode_order : encode (.addRegRegMem .r0 .r1 ⟨O, O, I, L, I, I⟩) = [⟨O, L, L, O, I, O⟩, ⟨O, O, I, L, I, I⟩] := by decide
theorem test_asm : asmText (.jleImmMem ⟨O, O, I, L, I, I⟩ Tryte.ones) = "jle 111111, [001λ11]" := by decide

/-! MOV (section 2.4). -/

theorem test_movRegReg :
    seen (step (running ⟨O, O, O, O, O, O⟩ ⟨O, O, O, L, L, L⟩ Tryte.zeros ⟨O, O, O, I, L, I⟩ I
        [] [⟨I, L, L, O, I, L⟩]))
      (fun t => (t.rz, t.r1, t.zf, t.pc)) = some (⟨O, O, O, I, L, I⟩, ⟨O, O, O, I, L, I⟩, I, ⟨O, O, O, O, O, I⟩) := by decide
theorem test_movMemReg :
    seen (step (running ⟨O, O, O, O, O, O⟩ ⟨O, O, O, O, O, I⟩ Tryte.zeros Tryte.zeros I
        [(⟨O, I, L, O, L, L⟩, ⟨L, O, I, L, O, I⟩)] [⟨I, O, L, O, O, L⟩, ⟨O, I, L, O, L, L⟩]))
      (fun t => (t.rz, t.zf, t.pc)) = some (⟨L, O, I, L, O, I⟩, I, ⟨O, O, O, O, I, L⟩) := by decide
theorem test_movMemReg_own_opcode :
    seen (step (running ⟨O, O, O, O, O, O⟩ Tryte.zeros Tryte.zeros Tryte.zeros I
        [] [⟨I, O, L, O, O, I⟩, ⟨O, O, O, O, O, O⟩]))
      (fun t => (t.r1, t.pc)) = some (⟨I, O, L, O, O, I⟩, ⟨O, O, O, O, I, L⟩) := by decide
theorem test_movRegMem :
    seen (step (running ⟨O, O, O, O, O, O⟩ Tryte.zeros ⟨O, O, O, O, O, L⟩ Tryte.zeros O
        [(⟨I, I, I, I, I, I⟩, ⟨O, O, O, O, O, O⟩)] [⟨I, L, I, O, O, O⟩, ⟨I, I, I, I, I, I⟩]))
      (fun t => (t.readCell Tryte.ones, t.r0, t.zf, t.pc)) = some (some ⟨O, O, O, O, O, L⟩, ⟨O, O, O, O, O, L⟩, O, ⟨O, O, O, O, I, L⟩) := by decide
theorem test_movImmMem :
    seen (step (running ⟨O, O, O, O, O, O⟩ Tryte.zeros Tryte.zeros Tryte.zeros I
        [(⟨O, I, L, L, L, O⟩, ⟨O, O, O, O, O, O⟩)] [⟨I, I, I, O, O, O⟩, ⟨O, I, L, L, L, O⟩, ⟨O, O, O, O, O, L⟩]))
      (fun t => (t.readCell ⟨O, I, L, L, L, O⟩, t.zf, t.pc)) = some (some ⟨O, O, O, O, O, L⟩, I, ⟨O, O, O, O, I, O⟩) := by decide

/-! ALU (sections 2.5, 2.6). `nand` and `msk` answer whatever the open functions answer; the vectors of section 2.6
are those of the recommended instances. -/

theorem test_addRegRegMem :
    seen (step (running ⟨O, O, O, O, O, O⟩ Tryte.zeros ⟨O, O, O, I, L, L⟩ ⟨O, O, O, I, L, I⟩ O
        [] [⟨O, L, L, O, I, O⟩, ⟨O, O, I, L, I, I⟩]))
      (fun t => (t.readCell ⟨O, O, I, L, I, I⟩, t.zf, t.pc)) = some (some ⟨O, O, O, I, I, O⟩, I, ⟨O, O, O, O, I, L⟩) := by decide
theorem test_addMemRegReg_accumulates :
    seen (step (running ⟨O, O, O, O, O, O⟩ Tryte.zeros ⟨O, O, O, I, L, L⟩ Tryte.zeros O
        [(⟨O, O, I, L, I, O⟩, ⟨O, O, O, I, L, I⟩)] [⟨O, O, L, O, O, O⟩, ⟨O, O, I, L, I, O⟩]))
      (fun t => (t.r0, t.zf, t.pc)) = some (⟨O, O, O, I, I, O⟩, I, ⟨O, O, O, O, I, L⟩) := by decide
theorem test_addMemImmReg_tests :
    seen (step (running ⟨O, O, O, O, O, O⟩ Tryte.zeros Tryte.zeros Tryte.zeros I
        [(⟨O, O, I, O, I, O⟩, ⟨O, O, O, L, L, L⟩)] [⟨O, I, L, O, O, I⟩, ⟨O, O, I, O, I, O⟩, ⟨O, O, O, O, O, O⟩]))
      (fun t => (t.r1, t.zf, t.pc)) = some (⟨O, O, O, L, L, L⟩, L, ⟨O, O, O, O, I, O⟩) := by decide
theorem test_subRegRegMem :
    seen (step (running ⟨O, O, O, O, O, O⟩ Tryte.zeros ⟨O, O, O, I, L, L⟩ ⟨O, O, O, I, L, I⟩ O
        [] [⟨O, L, L, L, O, I⟩, ⟨O, O, I, L, I, I⟩]))
      (fun t => (t.readCell ⟨O, O, I, L, I, I⟩, t.zf, t.pc)) = some (some ⟨O, O, O, O, I, L⟩, I, ⟨O, O, O, O, I, L⟩) := by decide
theorem test_subMemRegReg :
    seen (step (running ⟨O, O, O, O, O, O⟩ Tryte.zeros ⟨O, O, O, I, O, O⟩ Tryte.zeros O
        [(⟨O, O, I, I, I, I⟩, ⟨O, O, O, O, I, I⟩)] [⟨O, O, L, L, O, I⟩, ⟨O, O, I, I, I, I⟩]))
      (fun t => (t.r1, t.r0, t.zf)) = some (⟨O, O, O, L, I, I⟩, ⟨O, O, O, I, O, O⟩, L) := by decide
theorem test_subMemImmReg :
    seen (step (running ⟨O, O, O, O, O, O⟩ Tryte.zeros Tryte.zeros Tryte.zeros O
        [(⟨O, O, I, O, I, O⟩, ⟨O, O, O, I, L, L⟩)] [⟨O, I, L, L, O, L⟩, ⟨O, O, I, O, I, O⟩, ⟨O, O, O, I, L, I⟩]))
      (fun t => (t.rz, t.zf, t.pc)) = some (⟨O, O, O, O, L, I⟩, L, ⟨O, O, O, O, I, O⟩) := by decide
theorem test_nandRegRegMem :
    seen (step (running ⟨O, O, O, O, O, O⟩ ⟨L, O, I, L, O, I⟩ ⟨L, O, I, O, O, O⟩ Tryte.zeros O
        [] [⟨O, L, O, O, O, L⟩, ⟨O, I, L, O, L, I⟩]))
      (fun t => (t.readCell ⟨O, I, L, O, L, I⟩, t.zf, t.pc)) = some (some (Config.nany ⟨L, O, I, L, O, I⟩ ⟨L, O, I, O, O, O⟩), sign (Config.nany ⟨L, O, I, L, O, I⟩ ⟨L, O, I, O, O, O⟩), ⟨O, O, O, O, I, L⟩) := rfl
theorem test_nandRegRegMem_recommended :
    seen (aluRegRegMem nanyStar .rz .r0 ⟨O, I, L, O, L, I⟩ (small Tryte.zeros ⟨L, O, I, L, O, I⟩ ⟨L, O, I, O, O, O⟩ Tryte.zeros O []))
      (fun t => (t.readCell ⟨O, I, L, O, L, I⟩, t.zf)) = some (some ⟨I, O, L, I, O, L⟩, I) := by decide
theorem test_nandMemRegReg :
    seen (step (running ⟨O, O, O, O, O, O⟩ Tryte.zeros Tryte.zeros ⟨L, O, I, L, O, I⟩ O
        [(⟨O, I, L, O, L, L⟩, ⟨I, I, I, O, O, O⟩)] [⟨O, O, O, O, I, O⟩, ⟨O, I, L, O, L, L⟩]))
      (fun t => (t.r0, t.r1, t.pc)) = some (Config.nany ⟨I, I, I, O, O, O⟩ ⟨L, O, I, L, O, I⟩, ⟨L, O, I, L, O, I⟩, ⟨O, O, O, O, I, L⟩) := rfl
theorem test_nandMemRegReg_recommended :
    seen (aluMemRegReg nanyStar ⟨O, I, L, O, L, L⟩ .r1 .r0
        (small Tryte.zeros Tryte.zeros Tryte.zeros ⟨L, O, I, L, O, I⟩ O [(⟨O, I, L, O, L, L⟩, ⟨I, I, I, O, O, O⟩)]))
      (fun t => (t.r0, t.zf)) = some (⟨O, L, L, I, O, L⟩, L) := by decide
theorem test_nandMemImmReg :
    seen (step (running ⟨O, O, O, O, O, O⟩ Tryte.zeros Tryte.zeros Tryte.zeros O
        [(⟨O, I, L, O, L, L⟩, ⟨O, O, O, I, L, O⟩)] [⟨O, I, O, O, O, I⟩, ⟨O, I, L, O, L, L⟩, ⟨O, O, O, O, I, L⟩]))
      (fun t => (t.r1, t.pc)) = some (Config.nany ⟨O, O, O, I, L, O⟩ ⟨O, O, O, O, I, L⟩, ⟨O, O, O, O, I, O⟩) := rfl
theorem test_nandMemImmReg_recommended :
    seen (aluMemImmReg nanyStar ⟨O, I, L, O, L, L⟩ ⟨O, O, O, O, I, L⟩ .r1
        (small Tryte.zeros Tryte.zeros Tryte.zeros Tryte.zeros O [(⟨O, I, L, O, L, L⟩, ⟨O, O, O, I, L, O⟩)]))
      (fun t => (t.r1, t.zf)) = some (⟨O, O, O, L, O, I⟩, L) := by decide
theorem test_mskRegRegMem :
    seen (step (running ⟨O, O, O, O, O, O⟩ Tryte.zeros ⟨L, O, L, O, I, I⟩ ⟨L, O, I, L, O, I⟩ O
        [] [⟨O, L, I, O, I, O⟩, ⟨O, I, L, O, L, I⟩]))
      (fun t => (t.readCell ⟨O, I, L, O, L, I⟩, t.zf, t.pc)) = some (some (Config.lmul ⟨L, O, L, O, I, I⟩ ⟨L, O, I, L, O, I⟩), sign (Config.lmul ⟨L, O, L, O, I, I⟩ ⟨L, O, I, L, O, I⟩), ⟨O, O, O, O, I, L⟩) := rfl
theorem test_mskRegRegMem_recommended :
    seen (aluRegRegMem lmulStar .r0 .r1 ⟨O, I, L, O, L, I⟩ (small Tryte.zeros Tryte.zeros ⟨L, O, L, O, I, I⟩ ⟨L, O, I, L, O, I⟩ O []))
      (fun t => (t.readCell ⟨O, I, L, O, L, I⟩, t.zf)) = some (some ⟨I, O, L, O, O, I⟩, I) := by decide
theorem test_mskMemRegReg :
    seen (step (running ⟨O, O, O, O, O, O⟩ ⟨L, O, I, L, O, I⟩ Tryte.zeros Tryte.zeros O
        [(⟨O, I, L, O, L, O⟩, ⟨I, I, I, O, O, O⟩)] [⟨O, O, I, O, L, O⟩, ⟨O, I, L, O, L, O⟩]))
      (fun t => (t.r0, t.rz, t.pc)) = some (Config.lmul ⟨I, I, I, O, O, O⟩ ⟨L, O, I, L, O, I⟩, ⟨L, O, I, L, O, I⟩, ⟨O, O, O, O, I, L⟩) := rfl
theorem test_mskMemRegReg_recommended :
    seen (aluMemRegReg lmulStar ⟨O, I, L, O, L, O⟩ .rz .r0
        (small Tryte.zeros ⟨L, O, I, L, O, I⟩ Tryte.zeros Tryte.zeros O [(⟨O, I, L, O, L, O⟩, ⟨I, I, I, O, O, O⟩)]))
      (fun t => (t.r0, t.zf)) = some (⟨L, O, I, O, O, O⟩, L) := by decide
theorem test_mskMemImmReg :
    seen (step (running ⟨O, O, O, O, O, O⟩ Tryte.zeros Tryte.zeros Tryte.zeros O
        [(⟨O, I, L, O, L, L⟩, ⟨L, O, I, L, O, I⟩)] [⟨O, I, I, O, O, I⟩, ⟨O, I, L, O, L, L⟩, ⟨O, O, O, I, I, I⟩]))
      (fun t => (t.r1, t.pc)) = some (Config.lmul ⟨L, O, I, L, O, I⟩ ⟨O, O, O, I, I, I⟩, ⟨O, O, O, O, I, O⟩) := rfl
theorem test_mskMemImmReg_recommended :
    seen (aluMemImmReg lmulStar ⟨O, I, L, O, L, L⟩ ⟨O, O, O, I, I, I⟩ .r1
        (small Tryte.zeros Tryte.zeros Tryte.zeros Tryte.zeros O [(⟨O, I, L, O, L, L⟩, ⟨L, O, I, L, O, I⟩)]))
      (fun t => (t.r1, t.zf)) = some (⟨O, O, O, L, O, I⟩, L) := by decide

/-! Jumps (section 2.8): at address 4, cell 53 holds 11, R1 and ZF as given; the counter after each value of ZF, and
what a jump must leave alone. -/

/-- The value of the counter after the instruction at address 4, for ZF = λ, 0 and 1; nothing if ZF changed. -/
def jumps (ws : List Tryte) : List (Option Int) :=
  [L, O, I].map fun z =>
    match seen (step (running ⟨O, O, O, O, I, I⟩ Tryte.zeros Tryte.zeros Tryte.zeros z
        [(⟨O, I, L, O, O, L⟩, ⟨O, O, O, I, I, L⟩)] ws)) (fun t => (t.zf, val t.pc)) with
    | some (z', v) => if z = z' then some v else none
    | none => none

theorem test_jmpMem : jumps [⟨L, O, L, O, O, O⟩, ⟨O, I, L, O, O, L⟩] = [some 11, some 11, some 11] := by decide
theorem test_jmpImm : jumps [⟨L, O, I, O, O, L⟩, ⟨O, O, O, I, I, O⟩] = [some 12, some 12, some 12] := by decide
theorem test_jlMem : jumps [⟨L, O, L, I, L, O⟩, ⟨O, I, L, O, O, L⟩] = [some 11, some 6, some 6] := by decide
theorem test_jlImm : jumps [⟨L, O, I, I, L, L⟩, ⟨O, O, O, I, I, O⟩] = [some 12, some 6, some 6] := by decide
theorem test_jeMem : jumps [⟨L, O, L, I, O, O⟩, ⟨O, I, L, O, O, L⟩] = [some 6, some 11, some 6] := by decide
theorem test_jeImm : jumps [⟨L, O, I, I, O, L⟩, ⟨O, O, O, I, I, O⟩] = [some 6, some 12, some 6] := by decide
theorem test_jgMem : jumps [⟨L, O, L, I, I, O⟩, ⟨O, I, L, O, O, L⟩] = [some 6, some 6, some 11] := by decide
theorem test_jgImm : jumps [⟨L, O, I, I, I, L⟩, ⟨O, O, O, I, I, O⟩] = [some 6, some 6, some 12] := by decide
theorem test_jleMemImm : jumps [⟨L, O, O, L, I, I⟩, ⟨O, I, L, O, O, L⟩, ⟨O, O, I, L, I, L⟩] = [some 11, some 20, some 7] := by decide
theorem test_jleImmImm : jumps [⟨L, O, I, L, I, O⟩, ⟨O, O, O, I, I, O⟩, ⟨O, O, I, L, O, L⟩] = [some 12, some 17, some 7] := by decide
theorem test_jleImmMem : jumps [⟨L, O, L, L, I, I⟩, ⟨O, I, L, O, O, L⟩, ⟨O, O, I, L, I, L⟩] = [some 20, some 11, some 7] := by decide
theorem test_jlgMemImm : jumps [⟨L, O, O, L, O, I⟩, ⟨O, I, L, O, O, L⟩, ⟨O, O, I, L, I, L⟩] = [some 11, some 7, some 20] := by decide
theorem test_jlgImmImm : jumps [⟨L, O, I, L, O, O⟩, ⟨O, O, O, I, I, O⟩, ⟨O, O, I, L, O, L⟩] = [some 12, some 7, some 17] := by decide
theorem test_jlgImmMem : jumps [⟨L, O, L, L, O, I⟩, ⟨O, I, L, O, O, L⟩, ⟨O, O, I, L, I, L⟩] = [some 20, some 7, some 11] := by decide
theorem test_jegMemImm : jumps [⟨L, O, O, L, L, I⟩, ⟨O, I, L, O, O, L⟩, ⟨O, O, I, L, I, L⟩] = [some 7, some 11, some 20] := by decide
theorem test_jegImmImm : jumps [⟨L, O, I, L, L, O⟩, ⟨O, O, O, I, I, O⟩, ⟨O, O, I, L, O, L⟩] = [some 7, some 12, some 17] := by decide
theorem test_jegImmMem : jumps [⟨L, O, L, L, L, I⟩, ⟨O, I, L, O, O, L⟩, ⟨O, O, I, L, I, L⟩] = [some 7, some 20, some 11] := by decide
theorem test_jump_wraps :
    seen (step (running Tryte.ones Tryte.zeros Tryte.zeros Tryte.zeros O [] [⟨L, O, I, I, I, L⟩, ⟨O, O, O, O, I, L⟩]))
      (fun t => t.pc) = some ⟨L, L, L, L, L, O⟩ := by decide
theorem test_thenElse_reading :
    [L, O, I].map (fun z => complexTarget .thenElse L z (.cell Tryte.ones) (.imm Tryte.lams)) =
      [some (.imm Tryte.lams), some (.cell Tryte.ones), some (.cell Tryte.ones)] := by decide

/-! finish, reboot and the stops (sections 2.9, 2.10). -/

theorem test_finish :
    seen (step (running ⟨O, O, O, I, L, O⟩ Tryte.zeros Tryte.zeros ⟨O, O, O, I, I, O⟩ I [] [⟨L, I, I, O, O, O⟩]))
      (fun t => (t.pc, t.r1, t.zf, t.halted)) = some (Config.kConst, ⟨O, O, O, I, I, O⟩, I, true) := rfl
theorem test_reboot :
    seen (step (running ⟨O, O, O, I, O, I⟩ Tryte.zeros ⟨O, O, O, I, L, L⟩ Tryte.zeros L [] [⟨L, L, I, O, O, O⟩]))
      (fun t => (t.pc, t.r0, t.zf, t.halted)) = some (Config.kConst, ⟨O, O, O, I, L, L⟩, L, false) := rfl
theorem test_undefined_opcode :
    stop (step (running Tryte.zeros Tryte.zeros Tryte.zeros Tryte.zeros O [] [⟨O, L, L, I, O, I⟩])) = some (.inr (.undefinedOpcode ⟨O, L, L, I, O, I⟩)) := by decide
theorem test_unwritten_cell : stop (step State.reset) = some (.inl (.unwrittenCell Tryte.zeros)) := by decide
/-- Section 2.10: under `SMC = refuse` the store at address 0 into cell 3 is refused, and the one into cell 6 is not. -/
theorem test_smc_refuse :
    stop (storeNext .refuse ⟨O, O, O, O, I, O⟩ ⟨O, O, O, O, O, L⟩ 3 (small Tryte.zeros Tryte.zeros Tryte.zeros Tryte.zeros O [])) =
        some (.inr .storeIntoNextInstruction) ∧
      stop (storeNext .refuse ⟨O, O, O, I, L, O⟩ ⟨O, O, O, O, O, L⟩ 3 (small Tryte.zeros Tryte.zeros Tryte.zeros Tryte.zeros O [])) = none := by decide
/-- The data path's fill arms, which no opcode reaches (R113). -/
theorem test_fill_forbidden :
    stop (registerAction { controls Tryte.zeros with regAct := .lam } (some Tryte.zeros) Tryte.zeros State.reset .next) =
      some (.inr .fillForbidden) := by decide

/-! The host's words (log entry 21): twelve bits a tryte, two bits a trit, λ written 3. -/

/-- `mov R1 → RZ` is 1λλ01λ: from T5 down 01 11 11 00 01 11. -/
theorem test_decodeTableWord : decodeTableWord 16 0x7c7 = some (.movRegReg .r1 .rz) := by decide
/-- `jmp i1` is λ0100λ, 11 00 01 00 00 11, with i1 = 000001 in bits 23..12. -/
theorem test_decodeTableWord_immediate : decodeTableWord 24 0x1c43 = some (.jmpImm ⟨O, O, O, O, O, I⟩) := by decide
theorem test_decodeTableWord_no_trit : decodeTableWord 16 0x2 = none := by decide
theorem test_withFetchWord :
    seen (step (State.reset.withFetchWord 24 0x1c43)) (fun t => t.pc) = some ⟨O, O, O, O, O, I⟩ := by decide


/-! Witnesses: for each statement of Certificates/Slice0/Obligations.lean that has hypotheses, a state and operands that
meet all of them together, one for each clause. -/

/-- A machine with every one of the 729 cells written. -/
def full (op : Tryte) (rest : Tryte) (halted : Bool) : State :=
  { rz := Tryte.zeros, r0 := Tryte.zeros, r1 := Tryte.zeros, pc := Tryte.lams, zf := O,
    ram := (0, op) :: ((List.range 728).map fun k => (k + 1, rest)), halted := halted }

theorem full_written (op rest : Tryte) (h : Bool) (a : Tryte) : ((full op rest h).readCell a).isSome = true := by
  refine lookup_isSome_of_mem _ _ ?_
  have := addrIndex_lt a
  rcases hk : addrIndex a with _ | k
  · simp [full]
  · simp only [full, List.map_cons, List.map_map, List.mem_cons, List.mem_map, List.mem_range, Function.comp]
    exact .inr ⟨k, by omega, rfl⟩

/-- `mov R1 → [111111]` at address 0, with cell 53 = 11. -/
def storing : State :=
  running Tryte.zeros Tryte.zeros Tryte.zeros Tryte.ones O [(⟨O, I, L, O, O, L⟩, ⟨O, O, O, I, I, L⟩)]
    [⟨I, L, I, O, I, O⟩, Tryte.ones]

def stored : State := (storing.writeCell Tryte.ones Tryte.ones).advance 2

/-- `finish` at address 0. -/
def finishing : State := running Tryte.zeros Tryte.zeros Tryte.zeros Tryte.zeros O [] [⟨L, I, I, O, O, O⟩]

/-- A running machine whose cell 1 holds 5, whose R0 and R1 differ, and whose ZF is as given; it is in the middle of no
program. -/
def data (zf : Trit) : State :=
  small Tryte.zeros Tryte.lams ⟨O, O, O, O, O, I⟩ ⟨O, O, O, O, I, O⟩ zf [(⟨O, O, O, O, O, I⟩, ⟨O, O, O, I, L, L⟩)]

theorem witness_StepKeepsRamCanonical : Memory.wf storing.ram ∧ step storing = .next stored := ⟨by decide, rfl⟩
theorem witness_WrittenCellsStayWritten : step storing = .next stored ∧
    (storing.readCell ⟨O, I, L, O, O, L⟩).isSome = true := ⟨rfl, by decide⟩
theorem witness_HaltedMachineChangesNothing : storing.halt.halted = true := by decide
theorem witness_OnlyFinishEndsRun_finish : finishing.halted = false ∧
    step finishing = .next (finishing.setPc Config.kConst).halt ∧
    finishing.readCell finishing.pc = some ⟨L, I, I, O, O, O⟩ := ⟨rfl, rfl, by decide⟩
theorem witness_OnlyFinishEndsRun_other : storing.halted = false ∧ step storing = .next stored ∧ stored.halted = false := by
  exact ⟨rfl, rfl, rfl⟩
theorem witness_EndedRunStaysEnded : storing.halt.halted = true ∧ Reaches storing.halt storing.halt :=
  ⟨rfl, .step (.here _) rfl⟩
theorem witness_StepRunsDecodedInstruction_1 : finishing.halted = false ∧
    decode [⟨L, I, I, O, O, O⟩] = .ok (.finish, []) ∧ finishing.holdsAt finishing.pc [⟨L, I, I, O, O, O⟩] = true :=
  ⟨rfl, rfl, by decide⟩
theorem witness_StepRunsDecodedInstruction_2 : storing.halted = false ∧
    decode [⟨I, L, I, O, I, O⟩, Tryte.ones] = .ok (.movRegMem .r1 Tryte.ones, []) ∧
    storing.holdsAt storing.pc [⟨I, L, I, O, I, O⟩, Tryte.ones] = true := ⟨rfl, rfl, by decide⟩
/-- Three trytes, the last two of which lie past the top of the address space. -/
theorem witness_StepRunsDecodedInstruction_3 :
    decode [⟨I, I, I, O, O, O⟩, Tryte.zeros, Tryte.ones] = .ok (.movImmMem Tryte.zeros Tryte.ones, []) ∧
    (running Tryte.ones Tryte.zeros Tryte.zeros Tryte.zeros O [] [⟨I, I, I, O, O, O⟩, Tryte.zeros, Tryte.ones]).holdsAt
      Tryte.ones [⟨I, I, I, O, O, O⟩, Tryte.zeros, Tryte.ones] = true := ⟨rfl, by decide⟩
/-- The cell after the undefined opcode is unwritten: the opcode is refused before anything else is read. -/
theorem witness_StepRefusesExactlyUndefinedOpcodes :
    step (running Tryte.zeros Tryte.zeros Tryte.zeros Tryte.zeros O [] [Tryte.ones]) =
      .refused (.undefinedOpcode Tryte.ones) ∧ definedOpcode Tryte.ones = false := ⟨rfl, by decide⟩
theorem witness_StepFaultsOnlyOnUnwrittenCells_opcode :
    step State.reset = .fault (.unwrittenCell Tryte.zeros) := rfl
theorem witness_StepFaultsOnlyOnUnwrittenCells_immediate :
    step (running Tryte.ones Tryte.zeros Tryte.zeros Tryte.zeros O [] [⟨I, I, I, O, O, O⟩, Tryte.zeros]) =
      .fault (.unwrittenCell ⟨L, L, L, L, L, O⟩) := rfl
theorem witness_StepCompletesWhereCellsAreWritten_running :
    (∀ a, ((full ⟨O, L, L, O, O, O⟩ Tryte.ones false).readCell a).isSome = true) ∧
    (full ⟨O, L, L, O, O, O⟩ Tryte.ones false).readCell Tryte.lams = some ⟨O, L, L, O, O, O⟩ ∧
    definedOpcode ⟨O, L, L, O, O, O⟩ = true := ⟨full_written _ _ _, rfl, by decide⟩
theorem witness_StepCompletesWhereCellsAreWritten_halted :
    (∀ a, ((full Tryte.ones Tryte.ones true).readCell a).isSome = true) ∧ (full Tryte.ones Tryte.ones true).halted = true :=
  ⟨full_written _ _ _, rfl⟩
theorem witness_InstructionCompletesUnlessItsCellIsUnwritten_none :
    dataRead (.jlMem Tryte.ones) (data O).zf = none := by decide
theorem witness_InstructionCompletesUnlessItsCellIsUnwritten_some :
    dataRead (.jlMem ⟨O, O, O, O, O, I⟩) (data L).zf = some ⟨O, O, O, O, O, I⟩ ∧
    (data L).readCell ⟨O, O, O, O, O, I⟩ = some ⟨O, O, O, I, L, L⟩ := by decide
theorem witness_InstructionCompletesUnlessItsCellIsUnwritten_unwritten :
    dataRead (.jlMem Tryte.ones) (data L).zf = some Tryte.ones ∧ (data L).readCell Tryte.ones = none := by decide
theorem witness_InstructionsChangeOnlyTheirDestination :
    exec (.movRegReg .r1 .r0) (data O) = .next (((data O).setReg .r0 ⟨O, O, O, O, I, O⟩).advance 1) ∧
    regWritten (.movRegReg .r1 .r0) ≠ some .r1 ∧ dataWrite (.movRegReg .r1 .r0) ≠ some Tryte.ones :=
  ⟨rfl, by decide, by decide⟩
theorem witness_RegisterWriteGoesThroughOnePort :
    exec (.movRegReg .r1 .r0) (data O) = .next (((data O).setReg .r0 ⟨O, O, O, O, I, O⟩).advance 1) ∧
    (((data O).setReg .r0 ⟨O, O, O, O, I, O⟩).advance 1).reg .r0 ≠ (data O).reg .r0 := ⟨rfl, by decide⟩
theorem witness_OnlyAluWritesZf_not_alu :
    exec (.movRegReg .r1 .r0) (data I) = .next (((data I).setReg .r0 ⟨O, O, O, O, I, O⟩).advance 1) ∧
    familyOf (.movRegReg .r1 .r0) ≠ .alu := ⟨rfl, by decide⟩
theorem witness_OnlyAluWritesZf_register :
    exec (.addMemImmReg ⟨O, O, O, O, O, I⟩ Tryte.zeros .r0) (data O) =
      .next ((((data O).setZf I).setReg .r0 ⟨O, O, O, I, L, L⟩).advance 3) ∧
    familyOf (.addMemImmReg ⟨O, O, O, O, O, I⟩ Tryte.zeros .r0) = .alu ∧
    regWritten (.addMemImmReg ⟨O, O, O, O, O, I⟩ Tryte.zeros .r0) = some .r0 := ⟨rfl, by decide, by decide⟩
theorem witness_OnlyAluWritesZf_cell :
    exec (.subRegRegMem .r0 .r1 Tryte.lams) (data O) =
      .next ((((data O).setZf L).writeCell Tryte.lams ⟨O, O, O, O, L, I⟩).advance 2) ∧
    familyOf (.subRegRegMem .r0 .r1 Tryte.lams) = .alu ∧
    dataWrite (.subRegRegMem .r0 .r1 Tryte.lams) = some Tryte.lams := ⟨rfl, by decide, by decide⟩
theorem witness_CodeFlowWritesNothing : familyOf (.jeImm Tryte.ones) = .jxx ∧
    exec (.jeImm Tryte.ones) (data O) = .next ((data O).setPc Tryte.ones) := ⟨by decide, rfl⟩
theorem witness_MovAndAluGoOnSequentially : familyOf (.movRegReg .r1 .r0) ≠ .jxx ∧
    exec (.movRegReg .r1 .r0) (data O) = .next (((data O).setReg .r0 ⟨O, O, O, O, I, O⟩).advance 1) :=
  ⟨by decide, rfl⟩
theorem witness_CounterTakesOnlyProgramSuppliedTargets_next :
    exec (.jlImm Tryte.ones) (data O) = .next ((data O).advance 2) := rfl
theorem witness_CounterTakesOnlyProgramSuppliedTargets_immediate :
    exec (.jleImmImm Tryte.ones Tryte.lams) (data O) = .next ((data O).setPc Tryte.lams) := rfl
theorem witness_CounterTakesOnlyProgramSuppliedTargets_cell :
    exec (.jmpMem ⟨O, O, O, O, O, I⟩) (data O) = .next ((data O).setPc ⟨O, O, O, I, L, L⟩) := rfl
theorem witness_ZfMattersOnlyToConditionalJumps :
    readsZf (.addMemImmReg ⟨O, O, O, O, O, I⟩ Tryte.zeros .r0) = false ∧
    exec (.addMemImmReg ⟨O, O, O, O, O, I⟩ Tryte.zeros .r0) (data O) =
      .next ((((data O).setZf I).setReg .r0 ⟨O, O, O, I, L, L⟩).advance 3) := ⟨by decide, rfl⟩
/-- RZ is neither source nor destination. -/
theorem witness_UnreadRegisterDoesNotMatter_other : Reg.rz ∉ regsRead (.movRegReg .r1 .r0) ∧
    exec (.movRegReg .r1 .r0) (data O) = .next (((data O).setReg .r0 ⟨O, O, O, O, I, O⟩).advance 1) ∧
    regWritten (.movRegReg .r1 .r0) ≠ some .rz := ⟨by decide, rfl, by decide⟩
/-- R0 is the destination and is not read. -/
theorem witness_UnreadRegisterDoesNotMatter_load : Reg.r0 ∉ regsRead (.movMemReg ⟨O, O, O, O, O, I⟩ .r0) ∧
    exec (.movMemReg ⟨O, O, O, O, O, I⟩ .r0) (data O) = .next (((data O).setReg .r0 ⟨O, O, O, I, L, L⟩).advance 2) ∧
    regWritten (.movMemReg ⟨O, O, O, O, O, I⟩ .r0) = some .r0 := ⟨by decide, rfl, by decide⟩
/-- RZ is the destination of `add [1], R0 → RZ` (5 + 1), and only R0 is read. -/
theorem witness_UnreadRegisterDoesNotMatter_alu : Reg.rz ∉ regsRead (.addMemRegReg ⟨O, O, O, O, O, I⟩ .r0 .rz) ∧
    exec (.addMemRegReg ⟨O, O, O, O, O, I⟩ .r0 .rz) (data O) =
      .next ((((data O).setZf I).setReg .rz ⟨O, O, O, I, L, O⟩).advance 2) ∧
    regWritten (.addMemRegReg ⟨O, O, O, O, O, I⟩ .r0 .rz) = some .rz := ⟨by decide, rfl, by decide⟩
theorem witness_DecodedWordsAreTheEncoding :
    decode [⟨I, L, I, O, I, O⟩, Tryte.ones, Tryte.zeros] = .ok (.movRegMem .r1 Tryte.ones, [Tryte.zeros]) := rfl
theorem witness_DecoderRejectsExactlyUndefinedOpcodes :
    decode [Tryte.ones] = .error (.undefinedOpcode Tryte.ones) ∧ definedOpcode Tryte.ones = false := ⟨rfl, by decide⟩
theorem witness_SourceTableAgreesWithDecoder :
    familyOf (.movRegReg .r1 .r0) ≠ .jxx ∧ familyOf (.jeImm Tryte.ones) = .jxx := by decide
theorem witness_DataPathRefinesInstructionSet :
    encode .finish <+: [⟨L, I, I, O, O, O⟩, Tryte.ones, Tryte.ones] ∧
    encode (.movImmMem Tryte.ones Tryte.lams) <+: [⟨I, I, I, O, O, O⟩, Tryte.ones, Tryte.lams] := by decide
theorem witness_HostWordRunsAsFetched : decodeTableWord 24 0x1c43 = some (.jmpImm ⟨O, O, O, O, O, I⟩) := by decide
/-- MOV, ALU and jump forms that read cell 1. -/
theorem witness_readable_cell : (data O).readCell ⟨O, O, O, O, O, I⟩ = some ⟨O, O, O, I, L, L⟩ := by decide
theorem witness_MovMemToRegLoads : (data O).readCell ⟨O, O, O, O, O, I⟩ = some ⟨O, O, O, I, L, L⟩ := witness_readable_cell
theorem witness_AddInAllForms : (data O).readCell ⟨O, O, O, O, O, I⟩ = some ⟨O, O, O, I, L, L⟩ := witness_readable_cell
theorem witness_SubInAllForms : (data O).readCell ⟨O, O, O, O, O, I⟩ = some ⟨O, O, O, I, L, L⟩ := witness_readable_cell
theorem witness_NandInAllForms : (data O).readCell ⟨O, O, O, O, O, I⟩ = some ⟨O, O, O, I, L, L⟩ := witness_readable_cell
theorem witness_MskInAllForms : (data O).readCell ⟨O, O, O, O, O, I⟩ = some ⟨O, O, O, I, L, L⟩ := witness_readable_cell
theorem witness_JmpJumps : (data O).readCell ⟨O, O, O, O, O, I⟩ = some ⟨O, O, O, I, L, L⟩ := witness_readable_cell
theorem witness_JlJumpsOnItsCondition : (data L).zf = .lam ∧ (data O).zf ≠ .lam ∧
    (data L).readCell ⟨O, O, O, O, O, I⟩ = some ⟨O, O, O, I, L, L⟩ := by decide
theorem witness_JeJumpsOnItsCondition : (data O).zf = .zero ∧ (data I).zf ≠ .zero ∧
    (data O).readCell ⟨O, O, O, O, O, I⟩ = some ⟨O, O, O, I, L, L⟩ := by decide
theorem witness_JgJumpsOnItsCondition : (data I).zf = .one ∧ (data O).zf ≠ .one ∧
    (data I).readCell ⟨O, O, O, O, O, I⟩ = some ⟨O, O, O, I, L, L⟩ := by decide
/-- The clauses of `jle`, one for each value of ZF, each with the cell its target stands in. -/
theorem witness_JleJumpsThreeWays : [L, O, I].map (fun z => ((data z).zf, (data z).readCell ⟨O, O, O, O, O, I⟩)) =
    [L, O, I].map fun z => (z, some ⟨O, O, O, I, L, L⟩) := by decide
theorem witness_JlgJumpsThreeWays : [L, O, I].map (fun z => ((data z).zf, (data z).readCell ⟨O, O, O, O, O, I⟩)) =
    [L, O, I].map fun z => (z, some ⟨O, O, O, I, L, L⟩) := witness_JleJumpsThreeWays
theorem witness_JegJumpsThreeWays : [L, O, I].map (fun z => ((data z).zf, (data z).readCell ⟨O, O, O, O, O, I⟩)) =
    [L, O, I].map fun z => (z, some ⟨O, O, O, I, L, L⟩) := witness_JleJumpsThreeWays
/-- Both ends of the range of the Adder's exactness. -/
theorem witness_AdderWrapsModulo729 :
    (-364 ≤ val Tryte.lams + val Tryte.zeros ∧ val Tryte.lams + val Tryte.zeros ≤ 364) ∧
    (-364 ≤ val Tryte.ones + val Tryte.zeros ∧ val Tryte.ones + val Tryte.zeros ≤ 364) := by decide
/-- Cell 1 holds 5; R0 = 1 (greater), RZ = −364 would leave the range, and 5 − (−359) = 364 is its end. -/
theorem witness_SubComparesExactlyInRange :
    (data O).readCell ⟨O, O, O, O, O, I⟩ = some ⟨O, O, O, I, L, L⟩ ∧
    (-364 ≤ val ⟨O, O, O, I, L, L⟩ - val ((data O).reg .r0) ∧ val ⟨O, O, O, I, L, L⟩ - val ((data O).reg .r0) ≤ 364) ∧
    val ⟨O, O, O, I, L, L⟩ - val ((data O).setReg .rz (tryte (-359)) |>.reg .rz) = 364 := by decide
theorem witness_ComplexJumpReadings : Operand.cell Tryte.ones ≠ Operand.imm Tryte.lams ∧
    L = (otherOutcomes O).1 ∧ I ≠ (otherOutcomes O).1 := by decide
/-- `mov λ11000 → [3]` at address 0: the store makes the following instruction `finish`. -/
theorem witness_StoreSeenByNextFetch :
    (running Tryte.zeros Tryte.zeros Tryte.zeros Tryte.zeros O [] [⟨I, I, I, O, O, O⟩, ⟨O, O, O, O, I, O⟩,
      ⟨L, I, I, O, O, O⟩]).holdsAt Tryte.zeros (encode (.movImmMem (succ Tryte.zeros 3) ⟨L, I, I, O, O, O⟩)) = true ∧
    encode .finish = [⟨L, I, I, O, O, O⟩] ∧
    (running Tryte.zeros Tryte.zeros Tryte.zeros Tryte.zeros O [] [⟨I, I, I, O, O, O⟩, ⟨O, O, O, O, I, O⟩,
      ⟨L, I, I, O, O, O⟩]).halted = false := by decide
theorem witness_SmcRefuseWindow : ∀ k ≤ 2, (⟨O, O, O, I, L, O⟩ : Tryte) ≠ succ (data O).pc (3 + k) := by decide

end Sys2Proof.Tests
end

section
/-! PROOF. The opcode map, row by row, and how many of the 729 trytes are opcodes (30_encoding.md rule R70). -/

namespace Sys2Proof.Proofs.OpcodeMap

open Sys2Proof.Machine

/-- Counting below `m * n` is counting in each of `m` blocks of `n`. -/
theorem countP_range_mul (p : Nat → Bool) (m n : Nat) :
    (List.range (m * n)).countP p =
      ((List.range m).map fun a => (List.range n).countP fun b => p (a * n + b)).sum := by
  induction m with
  | zero => simp
  | succ m ih => simp [Nat.succ_mul, List.range_add, List.range_succ, ih, Function.comp_def]

/-- Counting all trytes block by block, a block being the 27 trytes that agree in T5, T4 and T3. -/
theorem countP_trytes (p : Tryte → Bool) :
    ((List.range 729).map tryteOfIndex).countP p =
      ((List.range 27).map fun a => (List.range 27).countP fun b => p (tryteOfIndex (a * 27 + b))).sum := by
  rw [List.countP_map]
  exact countP_range_mul (p ∘ tryteOfIndex) 27 27

theorem countP_decodeOpcode_isSome :
    ((List.range 729).map tryteOfIndex).countP (fun op => (decodeOpcode op).isSome) = 119 := by
  rw [countP_trytes]
  decide

/-- Settles O21: the format of each row says how its immediates are read, and the row's letters hold registers, which
their trits give back. -/
theorem opcodeMapRows : Obligations.OpcodeMapRows := by
  unfold Obligations.OpcodeMapRows
  refine ⟨?movRegReg, ?movMemReg, ?movRegMem, ?movImmMem,
    ?addRegRegMem, ?addMemRegReg, ?addMemImmReg, ?subRegRegMem, ?subMemRegReg, ?subMemImmReg,
    ?nandRegRegMem, ?nandMemRegReg, ?nandMemImmReg, ?mskRegRegMem, ?mskMemRegReg, ?mskMemImmReg,
    ?jmpMem, ?jmpImm, ?jlMem, ?jlImm, ?jeMem, ?jeImm, ?jgMem, ?jgImm,
    ?jleMemImm, ?jleImmImm, ?jleImmMem, ?jlgMemImm, ?jlgImmImm, ?jlgImmMem, ?jegMemImm, ?jegImmImm, ?jegImmMem,
    ?finish, ?reboot, countP_decodeOpcode_isSome⟩
  case movRegReg => exact fun _ _ => decode_l1 (by simp [decodeOpcode])
  case finish | reboot => exact decode_l1 rfl
  case movMemReg | movRegMem => exact fun _ => decode_l2 (by simp [decodeOpcode])
  case addRegRegMem | subRegRegMem | nandRegRegMem | mskRegRegMem
      | addMemRegReg | subMemRegReg | nandMemRegReg | mskMemRegReg =>
    exact fun _ _ => decode_l2 (by simp [decodeOpcode])
  case jmpMem | jmpImm | jlMem | jlImm | jeMem | jeImm | jgMem | jgImm => exact decode_l2 rfl
  case addMemImmReg | subMemImmReg | nandMemImmReg | mskMemImmReg =>
    exact fun _ => decode_l3 (by simp [decodeOpcode])
  case movImmMem | jleMemImm | jleImmImm | jleImmMem | jlgMemImm | jlgImmImm | jlgImmMem
      | jegMemImm | jegImmImm | jegImmMem =>
    exact decode_l3 rfl

end Sys2Proof.Proofs.OpcodeMap
end

section
/-! PROOF. The variable `ins-len` and the lengths of the instructions (40_datapath_and_decoder.md rules R80, R96). The
bridge between the two is rule R62's own list of lengths, `opcodeLength`: the encoder keeps to it row by row, and
the Instruction Decoder computes it from every tryte, defined as an opcode or not. -/

namespace Sys2Proof.Proofs.InsLen

open Sys2Proof.Machine

/-- Every row of the opcode map fixes the trits that rule R62 looks at. -/
theorem encode_length (i : Instr) : (encode i).length = opcodeLength (opcodeOf i) := by
  cases i <;> rfl

/-- R96 computes R62's list: T4 tells the lengths of a family apart, with T3 beside it in MOV and T2
beside it in the jumps. -/
theorem lengthOf_insLen (op : Tryte) : lengthOf (insLen op) = opcodeLength op := by
  obtain ⟨t5, t4, t3, t2, t1, t0⟩ := op
  cases t5 with
  | one =>
    cases t4 with
    | lam => cases t3 <;> rfl
    | zero | one => rfl
  | zero => cases t4 <;> rfl
  | lam =>
    cases t4 with
    | zero => cases t2 <;> rfl
    | lam | one => rfl

theorem lengthOf_eq_val_add_two (l : Trit) : (lengthOf l : Int) = l.val + 2 := by
  cases l <;> rfl

/-- Settles O26: the encoding and the decoded `ins-len` have the same length, that of R62's list. -/
theorem insLenIsTheLength : Obligations.InsLenIsTheLength := by
  refine ⟨⟨rfl, rfl, rfl, lengthOf_eq_val_add_two⟩, fun i => ?_⟩
  calc (encode i).length
    _ = opcodeLength (opcodeOf i) := encode_length i
    _ = lengthOf (insLen (opcodeOf i)) := (lengthOf_insLen _).symm

end Sys2Proof.Proofs.InsLen
end

section
/-! PROOF. The MOV family (41_mov.md rules R120-R123): each row's words, its decoded variables, and the one register or
cell it writes. What the two destinations change and leave unchanged is said once, for any value and length. -/

namespace Sys2Proof.Proofs.Mov

open Sys2Proof.Machine Sys2Proof.Safety

/-- A register destination takes its value, and beside the counter nothing else changes. -/
theorem writesRegister_after (u : Reg) (v : Tryte) (len : Nat) (s : State) :
    WritesRegister u v s.zf len s ((Dest.reg u).after v len s) := by
  change WritesRegister u v s.zf len s ((s.setReg u v).advance len)
  refine ⟨?written, fun r hr => ?registers, fun a => ?cells, ?zf, ?pc, ?halted⟩
  case written => simp
  case registers => simp [hr]
  case cells | zf | pc | halted => simp

/-- A cell destination takes its value, and beside the counter nothing else changes. -/
theorem writesCell_after (addr v : Tryte) (len : Nat) (s : State) :
    WritesCell addr v s.zf len s ((Dest.cell addr).after v len s) := by
  change WritesCell addr v s.zf len s ((s.writeCell addr v).advance len)
  refine ⟨fun r => ?registers, ?written, fun a ha => ?cells, ?zf, ?pc, ?halted⟩
  case written => simp
  case cells => simp [ha]
  case registers | zf | pc | halted => simp

/-- Settles O32: the source is a register, which always has a value. -/
theorem movRegToRegCopies : Obligations.MovRegToRegCopies := by
  intro a u s
  refine ⟨?encoding, ?row, ?effect⟩
  case encoding | row => rfl
  case effect => exact ⟨_, exec_movRegReg_eq_next.mpr ⟨s.reg a, rfl, rfl⟩, writesRegister_after u (s.reg a) 1 s⟩

/-- Settles O33: the source is the cell, which has the value `v`. -/
theorem movMemToRegLoads : Obligations.MovMemToRegLoads := by
  intro i1 v u s
  refine ⟨?encoding, ?row, fun hcell => ?effect⟩
  case encoding | row => rfl
  case effect => exact ⟨_, exec_movMemReg_eq_next.mpr ⟨v, hcell, rfl⟩, writesRegister_after u v 2 s⟩

/-- Settles O34: the store always goes through, under the model's `SMC = sequential`. -/
theorem movRegToMemStores : Obligations.MovRegToMemStores := by
  intro a i1 s
  refine ⟨?encoding, ?row, ?effect⟩
  case encoding | row => rfl
  case effect => exact ⟨_, exec_movRegMem_eq_next.mpr ⟨s.reg a, rfl, rfl⟩, writesCell_after i1 (s.reg a) 2 s⟩

/-- Settles O35: as O34, with the second immediate for the source. -/
theorem movImmToMemStores : Obligations.MovImmToMemStores := by
  intro i1 i2 s
  refine ⟨?encoding, ?row, ?effect⟩
  case encoding | row => rfl
  case effect => exact ⟨_, exec_movImmMem_eq_next.mpr ⟨i2, rfl, rfl⟩, writesCell_after i1 i2 3 s⟩

end Sys2Proof.Proofs.Mov
end

section
/-! PROOF. The unconditional jump (43_codeflow.md rules R153, R154): each form's words, its decoded variables, and the
counter, which alone changes. -/

namespace Sys2Proof.Proofs.Jmp

open Sys2Proof.Machine Sys2Proof.Safety

/-- The frame of every jump that is taken: loading the counter touches no other part of the state. -/
theorem onlyMovesTo_setPc (target : Tryte) (s : State) : OnlyMovesTo target s (s.setPc target) := by
  refine ⟨fun r => ?registers, fun a => ?cells, ?zf, ?pc, ?halted⟩
  case registers => exact setPc_reg s r target
  case cells => exact setPc_readCell s target a
  case zf => exact setPc_zf s target
  case pc => exact setPc_pc s target
  case halted => exact setPc_halted s target

/-- Settles O40: the target is the cell's value `v` where there is one, or the immediate, which always has a value. -/
theorem jmpJumps : Obligations.JmpJumps := by
  refine ⟨fun i1 v s => ⟨?memEncoding, ?memRow, fun hcell => ?memEffect⟩,
    fun i1 s => ⟨?immEncoding, ?immRow, ?immEffect⟩⟩
  case memEncoding | memRow | immEncoding | immRow => rfl
  case memEffect => exact ⟨_, exec_jmpMem_eq_next.mpr ⟨v, hcell, rfl⟩, onlyMovesTo_setPc v s⟩
  case immEffect => exact ⟨_, exec_jmpImm_eq_next.mpr ⟨i1, rfl, rfl⟩, onlyMovesTo_setPc i1 s⟩

end Sys2Proof.Proofs.Jmp
end

section
/-! PROOF. The decoder against the encoder and against rule R71's predicate (30_encoding.md sections 4 and 5). What a
defined opcode says of its instruction is said once (`decodeOpcode_encodes`), and both directions of the round trip
and the bounds of the opcode map follow from it. -/

namespace Sys2Proof.Proofs.Decoder

open Sys2Proof.Machine

/-- Whatever immediates the format takes, the opcode and they are the encoding of the instruction it makes. -/
def EncodesAs (op : Tryte) (format : Template) : Prop :=
  match format with
  | .l1 i => encode i = [op]
  | .l2 mk => ∀ i1, encode (mk i1) = [op, i1]
  | .l3 mk => ∀ i1 i2, encode (mk i1 i2) = [op, i1, i2]

/-- Row by row, a trit that names a register is found again from the register. -/
theorem decodeOpcode_encodes {op : Tryte} {format : Template} (h : decodeOpcode op = some format) :
    EncodesAs op format := by
  unfold decodeOpcode at h
  split at h <;> cases h <;> simp [EncodesAs, encode]

/-- Settles O22: each constructor's encoding is its row of the opcode map, which O21 reads back. -/
theorem decodeEncodeAgree : Obligations.DecodeEncodeAgree := by
  intro i rest
  obtain ⟨movRegReg, movMemReg, movRegMem, movImmMem, addRegRegMem, addMemRegReg, addMemImmReg,
    subRegRegMem, subMemRegReg, subMemImmReg, nandRegRegMem, nandMemRegReg, nandMemImmReg,
    mskRegRegMem, mskMemRegReg, mskMemImmReg, jmpMem, jmpImm, jlMem, jlImm, jeMem, jeImm, jgMem, jgImm,
    jleMemImm, jleImmImm, jleImmMem, jlgMemImm, jlgImmImm, jlgImmMem, jegMemImm, jegImmImm, jegImmMem,
    finish, reboot, -⟩ := OpcodeMap.opcodeMapRows
  cases i with
  | movRegReg a u => exact movRegReg a u rest
  | movMemReg i1 u => exact movMemReg u i1 rest
  | movRegMem a i1 => exact movRegMem a i1 rest
  | movImmMem i1 i2 => exact movImmMem i1 i2 rest
  | addRegRegMem a c i1 => exact addRegRegMem a c i1 rest
  | addMemRegReg i1 c u => exact addMemRegReg c u i1 rest
  | addMemImmReg i1 i2 u => exact addMemImmReg u i1 i2 rest
  | subRegRegMem a c i1 => exact subRegRegMem a c i1 rest
  | subMemRegReg i1 c u => exact subMemRegReg c u i1 rest
  | subMemImmReg i1 i2 u => exact subMemImmReg u i1 i2 rest
  | nandRegRegMem a c i1 => exact nandRegRegMem a c i1 rest
  | nandMemRegReg i1 c u => exact nandMemRegReg c u i1 rest
  | nandMemImmReg i1 i2 u => exact nandMemImmReg u i1 i2 rest
  | mskRegRegMem a c i1 => exact mskRegRegMem a c i1 rest
  | mskMemRegReg i1 c u => exact mskMemRegReg c u i1 rest
  | mskMemImmReg i1 i2 u => exact mskMemImmReg u i1 i2 rest
  | jmpMem i1 => exact jmpMem i1 rest
  | jmpImm i1 => exact jmpImm i1 rest
  | jlMem i1 => exact jlMem i1 rest
  | jlImm i1 => exact jlImm i1 rest
  | jeMem i1 => exact jeMem i1 rest
  | jeImm i1 => exact jeImm i1 rest
  | jgMem i1 => exact jgMem i1 rest
  | jgImm i1 => exact jgImm i1 rest
  | jleMemImm i1 i2 => exact jleMemImm i1 i2 rest
  | jleImmImm i1 i2 => exact jleImmImm i1 i2 rest
  | jleImmMem i1 i2 => exact jleImmMem i1 i2 rest
  | jlgMemImm i1 i2 => exact jlgMemImm i1 i2 rest
  | jlgImmImm i1 i2 => exact jlgImmImm i1 i2 rest
  | jlgImmMem i1 i2 => exact jlgImmMem i1 i2 rest
  | jegMemImm i1 i2 => exact jegMemImm i1 i2 rest
  | jegImmImm i1 i2 => exact jegImmImm i1 i2 rest
  | jegImmMem i1 i2 => exact jegImmMem i1 i2 rest
  | finish => exact finish rest
  | reboot => exact reboot rest

/-- Settles O23: the decoder takes as many immediates as the opcode's format has, and `decodeOpcode_encodes` says that
the words taken are the encoding. -/
theorem decodedWordsAreTheEncoding : Obligations.DecodedWordsAreTheEncoding := by
  intro ws rest i h
  unfold decode at h
  split at h
  case h_1 => cases h
  case h_2 op tail =>
    split at h
    · cases h
    · next hop => cases h; exact (congrArg (· ++ rest) (decodeOpcode_encodes hop)).symm
    · next _ i1 _ hop => cases h; exact (congrArg (· ++ rest) (decodeOpcode_encodes hop i1)).symm
    · next _ i1 i2 _ hop => cases h; exact (congrArg (· ++ rest) (decodeOpcode_encodes hop i1 i2)).symm
    · cases h

/-- Every defined opcode is some instruction's, whatever its immediates. -/
theorem exists_opcodeOf_eq {op : Tryte} {format : Template} (h : decodeOpcode op = some format) :
    ∃ i, opcodeOf i = op := by
  have henc := decodeOpcode_encodes h
  cases format with
  | l1 i => exact ⟨i, congrArg (List.headD · Tryte.zeros) henc⟩
  | l2 mk => exact ⟨mk op, congrArg (List.headD · Tryte.zeros) (henc op)⟩
  | l3 mk => exact ⟨mk op op, congrArg (List.headD · Tryte.zeros) (henc op op)⟩

theorem definedOpcode_opcodeOf (i : Instr) : definedOpcode (opcodeOf i) = true := by
  cases i <;> rfl

/-- R71, T5 = 1: each of the four patterns is a row of the opcode map. -/
theorem decodeOpcode_of_definedMov {op : Tryte} (h : definedMov op = true) : (decodeOpcode op).isSome := by
  obtain ⟨t5, t4, t3, t2, t1, t0⟩ := op
  simp only [definedMov, Bool.and_eq_true, Bool.or_eq_true, beq_iff_eq] at h
  obtain ⟨⟨rfl, rfl⟩, ((⟨rfl, rfl⟩ | ⟨⟨rfl, rfl⟩, rfl⟩) | ⟨⟨rfl, rfl⟩, rfl⟩) | ⟨⟨⟨rfl, rfl⟩, rfl⟩, rfl⟩⟩ := h <;> rfl

/-- R71, T5 = 0: each of the four operations has a row of the opcode map in each of the three forms. -/
theorem decodeOpcode_of_definedAlu {op : Tryte} (h : definedAlu op = true) : (decodeOpcode op).isSome := by
  obtain ⟨t5, t4, t3, t2, t1, t0⟩ := op
  simp only [definedAlu, definedAluOp, Bool.and_eq_true, Bool.or_eq_true, beq_iff_eq] at h
  obtain ⟨⟨rfl, hop⟩, (rfl | rfl) | ⟨rfl, rfl⟩⟩ := h <;>
    obtain (⟨rfl, rfl | rfl⟩ | ⟨rfl, rfl⟩) | ⟨rfl, rfl⟩ := hop <;> rfl

/-- R71, T5 = λ: each of the nineteen listed opcodes is a row of the opcode map. -/
theorem decodeOpcode_of_definedJxx {op : Tryte} (h : definedJxx op = true) : (decodeOpcode op).isSome := by
  have hrows : ∀ listed ∈ jxxOpcodes, (decodeOpcode listed).isSome := by decide
  exact hrows op (List.contains_iff_mem.mp h)

/-- The opcode map and R71's predicate cover the same trytes. -/
theorem decodeOpcode_eq_none_iff (op : Tryte) : decodeOpcode op = none ↔ definedOpcode op = false := by
  constructor
  case mp =>
    intro hnone
    by_contra hdef
    rw [Bool.not_eq_false, definedOpcode, Bool.or_eq_true, Bool.or_eq_true] at hdef
    have hsome : (decodeOpcode op).isSome := by
      obtain (hmov | halu) | hjxx := hdef
      · exact decodeOpcode_of_definedMov hmov
      · exact decodeOpcode_of_definedAlu halu
      · exact decodeOpcode_of_definedJxx hjxx
    simp [hnone] at hsome
  case mpr =>
    intro hundef
    cases hop : decodeOpcode op with
    | none => rfl
    | some format =>
      obtain ⟨i, rfl⟩ := exists_opcodeOf_eq hop
      simp [definedOpcode_opcodeOf] at hundef

/-- Settles O24: a defined opcode decodes or lacks an immediate, and neither is the answer "undefined opcode". -/
theorem decoderRejectsExactlyUndefinedOpcodes : Obligations.DecoderRejectsExactlyUndefinedOpcodes := by
  intro op rest
  rw [← decodeOpcode_eq_none_iff]
  constructor
  case mpr => exact fun hnone => decode_undefined hnone rest
  case mp =>
    intro h
    unfold decode at h
    split at h
    case h_1 => cases h
    case h_2 =>
      split at h
      case h_1 hnone _ => cases h; exact hnone
      all_goals cases h

/-- Settles O25: each family is counted over the blocks of 27 trytes. -/
theorem definedOpcodeCounts : Obligations.DefinedOpcodeCounts := by
  refine ⟨?mov, ?alu, ?jxx, ?all⟩
  all_goals
    rw [OpcodeMap.countP_trytes]
    decide

/-- Settles O31: seven words are encodings, which O22 reads back, and the last tryte is in no row of the map. -/
theorem sampleWordsDecode : Obligations.SampleWordsDecode := by
  intro i1 i2
  exact ⟨decodeEncodeAgree (.movRegReg .r1 .rz) [], decodeEncodeAgree (.addRegRegMem .r0 .r1 i1) [],
    decodeEncodeAgree (.subRegRegMem .r1 .r0 i1) [], decodeEncodeAgree (.subMemImmReg i1 i2 .rz) [],
    decodeEncodeAgree (.mskMemRegReg i1 .rz .r0) [], decodeEncodeAgree (.jlgImmMem i1 i2) [],
    decodeEncodeAgree .finish [], decode_undefined rfl [i1]⟩

end Sys2Proof.Proofs.Decoder
end

section
/-! PROOF. The Instruction Decoder's functions over all opcodes (40_datapath_and_decoder.md section 3). -/

namespace Sys2Proof.Proofs.Controls

open Sys2Proof.Machine

theorem regAct_ne_lam (op : Tryte) : regAct op ≠ .lam := by
  unfold regAct; split <;> decide

theorem ramAct_ne_lam (op : Tryte) : ramAct op ≠ .lam := by
  unfold ramAct; split <;> decide

theorem aluOp1_ne_one (op : Tryte) : aluOp1 op ≠ .one := by
  unfold aluOp1; split <;> decide

/-- Settles O27: the λ and 1 arms named there are the value of no branch; each selector's three values are met by
opcodes of the map. -/
theorem decoderNeverSelectsForbiddenValues : Obligations.DecoderNeverSelectsForbiddenValues := by
  refine ⟨fun op => ⟨regAct_ne_lam op, ramAct_ne_lam op, rfl, aluOp1_ne_one op⟩, fun v => ?_⟩
  cases v with
  | lam =>
    exact ⟨⟨opcodeOf (.movMemReg Tryte.zeros .r0), rfl⟩, ⟨opcodeOf (.movRegReg .r0 .r0), rfl⟩,
      ⟨opcodeOf (.jmpMem Tryte.zeros), rfl⟩, ⟨opcodeOf (.jmpImm Tryte.zeros), rfl⟩,
      ⟨opcodeOf (.subRegRegMem .r0 .r0 Tryte.zeros), rfl⟩, ⟨opcodeOf (.addRegRegMem .r0 .r0 Tryte.zeros), rfl⟩⟩
  | zero =>
    exact ⟨⟨opcodeOf (.movRegReg .r0 .r0), rfl⟩, ⟨opcodeOf (.movImmMem Tryte.zeros Tryte.zeros), rfl⟩,
      ⟨opcodeOf (.movRegReg .r0 .r0), rfl⟩, ⟨opcodeOf (.jmpMem Tryte.zeros), rfl⟩,
      ⟨opcodeOf (.addRegRegMem .r0 .r0 Tryte.zeros), rfl⟩, ⟨opcodeOf (.nandRegRegMem .r0 .r0 Tryte.zeros), rfl⟩⟩
  | one =>
    exact ⟨⟨opcodeOf .finish, rfl⟩, ⟨opcodeOf .finish, rfl⟩, ⟨opcodeOf .finish, rfl⟩,
      ⟨opcodeOf (.addMemImmReg Tryte.zeros Tryte.zeros .r0), rfl⟩, ⟨opcodeOf .finish, rfl⟩,
      ⟨opcodeOf (.mskRegRegMem .r0 .r0 Tryte.zeros), rfl⟩⟩

/-- Settles O28: each printed row is the decoder's functions on that row's opcode, letters and all. -/
theorem sourceTableAgreesWithDecoder : Obligations.SourceTableAgreesWithDecoder := by
  intro i
  cases i
  case movRegReg | movMemReg | movRegMem | movImmMem | addRegRegMem | addMemRegReg | addMemImmReg
      | subRegRegMem | subMemRegReg | subMemImmReg | nandRegRegMem | nandMemRegReg | nandMemImmReg
      | mskRegRegMem | mskMemRegReg | mskMemImmReg =>
    exact ⟨fun _ => rfl, fun hjxx => nomatch hjxx⟩
  case jmpMem | jmpImm | jlMem | jlImm | jeMem | jeImm | jgMem | jgImm | jleMemImm | jleImmImm | jleImmMem
      | jlgMemImm | jlgImmImm | jlgImmMem | jegMemImm | jegImmImm | jegImmMem | finish | reboot =>
    exact ⟨fun hjxx => absurd rfl hjxx, fun _ => rfl⟩

end Sys2Proof.Proofs.Controls
end

section
/-! PROOF. Trytes as numbers (00_scope.md section 2, 42_alu.md section 1): the residue modulo 729, the Adder, negation,
the ring of addresses, and the sign. -/

namespace Sys2Proof.Proofs.Arith

open Sys2Proof.Machine

/-- Settles O51: two trytes whose values differ by a multiple of 729 are one, since 729 is more than their range. -/
theorem tryteIsTheUniqueResidue : Obligations.TryteIsTheUniqueResidue := by
  intro n t
  have hrange := val_bounds t
  rw [← val_inj, val_tryte]
  omega

/-- Settles O49: the Adder's value is that of `tryte` at the sum. -/
theorem adderWrapsModulo729 : Obligations.AdderWrapsModulo729 := by
  intro p q
  have hval : val (addT p q) = (val p + val q + 364) % 729 - 364 := val_tryte _
  omega

theorem trit_val_neg (t : Trit) : t.neg.val = -t.val := by cases t <;> rfl

@[simp] theorem trit_neg_neg (t : Trit) : t.neg.neg = t := by cases t <;> rfl

theorem val_negT (q : Tryte) : val (negT q) = -val q := by
  simp only [val, negT, mapTrits, trit_val_neg]
  ring

/-- Settles O50: negation is exact trit by trit, so the Adder gets the negated value. -/
theorem negationIsExact : Obligations.NegationIsExact := by
  intro p q
  refine ⟨val_negT q, ?involution, ?difference⟩
  case involution => simp [negT, mapTrits]
  case difference => rw [addT, val_negT, ← sub_eq_add_neg]

theorem val_succ (a : Tryte) (k : Nat) : val (succ a k) = (val a + k + 364) % 729 - 364 := val_tryte _

/-- Going on by `j` and then by `k` cells is going on by both. -/
@[simp] theorem succ_succ (a : Tryte) (j k : Nat) : succ (succ a j) k = succ a (j + k) := by
  rw [← val_inj, val_succ, val_succ, val_succ]
  omega

@[simp] theorem succ_zero (a : Tryte) : succ a 0 = a := by
  have hrange := val_bounds a
  rw [← val_inj, val_succ]
  omega

/-- The ring of addresses closes after 729 cells and not before. -/
theorem succ_eq_succ_iff (a : Tryte) (j k : Nat) : succ a j = succ a k ↔ j % 729 = k % 729 := by
  rw [← val_inj, val_succ, val_succ]
  omega

/-- Settles O52. -/
theorem successorWalksTheWholeRing : Obligations.SuccessorWalksTheWholeRing :=
  ⟨succ_succ, rfl, succ_eq_succ_iff⟩

theorem sign_eq_lam_iff (t : Tryte) : sign t = .lam ↔ val t < 0 := by
  unfold sign; split_ifs <;> simp <;> omega

theorem sign_eq_zero_iff (t : Tryte) : sign t = .zero ↔ val t = 0 := by
  unfold sign; split_ifs <;> simp <;> omega

theorem sign_eq_one_iff (t : Tryte) : sign t = .one ↔ 0 < val t := by
  unfold sign; split_ifs <;> simp <;> omega

/-- The sign of a number, of which `sign` is the case of a tryte's value (`sign_eq_numSign`). -/
def numSign (n : Int) : Trit := if n < 0 then .lam else if n = 0 then .zero else .one

theorem sign_eq_numSign (t : Tryte) : sign t = numSign (val t) := rfl

@[simp] theorem numSign_trit_val (t : Trit) : numSign t.val = t := by cases t <;> rfl

/-- A trit decides the sign of a number if what stands below its place is smaller than the place is worth. -/
theorem numSign_leading {t : Trit} {place low : Int} (hlow : -place < low ∧ low < place) :
    numSign (t.val * place + low) = if t ≠ .zero then t else numSign low := by
  cases t with
  | zero => simp [Trit.val]
  | lam => simp [Trit.val, numSign]; omega
  | one =>
    have hpos : 0 < place + low := by omega
    simp [Trit.val, numSign, hpos.not_gt, hpos.ne']

/-- Settles O53: from T5 down, each trit decides the sign unless it is 0. -/
theorem signIsTheLeadingTrit : Obligations.SignIsTheLeadingTrit := by
  intro t
  have h4 := trit_val_bounds t.t4
  have h3 := trit_val_bounds t.t3
  have h2 := trit_val_bounds t.t2
  have h1 := trit_val_bounds t.t1
  have h0 := trit_val_bounds t.t0
  have hplaces : val t = t.t5.val * 243 + (t.t4.val * 81 + (t.t3.val * 27 + (t.t2.val * 9 +
      (t.t1.val * 3 + t.t0.val)))) := by
    unfold val; ring
  rw [sign_eq_numSign, hplaces, numSign_leading (by omega), numSign_leading (by omega), numSign_leading (by omega),
    numSign_leading (by omega), numSign_leading (by omega), numSign_trit_val, leadingTrit]

end Sys2Proof.Proofs.Arith
end

section
/-! PROOF. NANY* and LMUL*, which the spec recommends for the two open ALU functions, trit by trit (42_alu.md
section 1, rules R133, R134). -/

namespace Sys2Proof.Proofs.TritFunctions

open Sys2Proof.Machine

theorem zipTrits_comm {f : Trit → Trit → Trit} (hf : ∀ a b, f a b = f b a) (p q : Tryte) :
    zipTrits f p q = zipTrits f q p := by
  simp only [zipTrits, hf p.t5, hf p.t4, hf p.t3, hf p.t2, hf p.t1, hf p.t0]

theorem nanyTrit_val (a b : Trit) : (nanyTrit a b).val = -(a.val + b.val).sign := by
  cases a <;> cases b <;> rfl

theorem nanyTrit_comm (a b : Trit) : nanyTrit a b = nanyTrit b a := by cases a <;> cases b <;> rfl
@[simp] theorem nanyTrit_self (a : Trit) : nanyTrit a a = a.neg := by cases a <;> rfl
@[simp] theorem nanyTrit_zero (a : Trit) : nanyTrit a .zero = a.neg := by cases a <;> rfl

/-- Settles O55: each identity of NANY* is that of its table, at each of the six places. -/
theorem nanyStarIsNegatedAny : Obligations.NanyStarIsNegatedAny := by
  refine ⟨nanyTrit_val, fun p q => ?places, zipTrits_comm nanyTrit_comm, fun p => ?self, fun p => ?zeros⟩
  case places => rfl
  case self => simp [nanyStar, zipTrits, negT, mapTrits]
  case zeros => simp [nanyStar, zipTrits, negT, mapTrits, Tryte.zeros]

theorem lmulTrit_val (a b : Trit) : (lmulTrit a b).val = a.val * b.val := by
  cases a <;> cases b <;> rfl

theorem lmulTrit_comm (a b : Trit) : lmulTrit a b = lmulTrit b a := by cases a <;> cases b <;> rfl
@[simp] theorem lmulTrit_one (a : Trit) : lmulTrit a .one = a := by cases a <;> rfl
@[simp] theorem lmulTrit_zero (a : Trit) : lmulTrit a .zero = .zero := by cases a <;> rfl
@[simp] theorem lmulTrit_lam (a : Trit) : lmulTrit a .lam = a.neg := by cases a <;> rfl

/-- Settles O56: each identity of LMUL* is that of its table, at each of the six places. -/
theorem lmulStarMasksTrits : Obligations.LmulStarMasksTrits := by
  refine ⟨lmulTrit_val, fun p q => ?places, zipTrits_comm lmulTrit_comm, fun p => ?ones, fun p => ?zeros, fun p => ?lams⟩
  case places => rfl
  case ones => simp [lmulStar, zipTrits, Tryte.ones]
  case zeros => simp [lmulStar, zipTrits, Tryte.zeros]
  case lams => simp [lmulStar, zipTrits, negT, mapTrits, Tryte.lams]

end Sys2Proof.Proofs.TritFunctions
end

section
/-! PROOF. The four forms the 35 instructions are made of: a move, an ALU operation, a jump and `finish`. `exec` is the
run of the form (`exec_eq_run`), and the tables of R24, R47 and R63 are read off it, so that a claim about every
instruction is settled form by form. -/

namespace Sys2Proof.Proofs.Forms

open Sys2Proof.Machine Sys2Proof.Safety

/-- A form with its operands filled in. A jump's target, if it takes one, depends on ZF. -/
inductive Form where
  | mov (src : Operand) (d : Dest)
  | alu (op : Tryte → Tryte → Tryte) (p q : Operand) (d : Dest)
  | jump (target : Trit → Option Operand)
  | finish

/-- The target of a jump under one condition (R151). -/
def whenZf (con : Trit) (target : Operand) (zf : Trit) : Option Operand := if zf = con then some target else none

/-- The target of a complex-condition jump with the excluded outcome `e` (R152, D10). -/
def threeWay (e : Trit) (a b : Operand) (zf : Trit) : Option Operand := complexTarget .threeWay e zf a b

/-- The form of each instruction (R70). -/
def formOf (i : Instr) : Form :=
  match i with
  | .movRegReg a u => .mov (.reg a) (.reg u)
  | .movMemReg i1 u => .mov (.cell i1) (.reg u)
  | .movRegMem a i1 => .mov (.reg a) (.cell i1)
  | .movImmMem i1 i2 => .mov (.imm i2) (.cell i1)
  | .addRegRegMem a c i1 => .alu addT (.reg a) (.reg c) (.cell i1)
  | .addMemRegReg i1 c u => .alu addT (.cell i1) (.reg c) (.reg u)
  | .addMemImmReg i1 i2 u => .alu addT (.cell i1) (.imm i2) (.reg u)
  | .subRegRegMem a c i1 => .alu subT (.reg a) (.reg c) (.cell i1)
  | .subMemRegReg i1 c u => .alu subT (.cell i1) (.reg c) (.reg u)
  | .subMemImmReg i1 i2 u => .alu subT (.cell i1) (.imm i2) (.reg u)
  | .nandRegRegMem a c i1 => .alu nany (.reg a) (.reg c) (.cell i1)
  | .nandMemRegReg i1 c u => .alu nany (.cell i1) (.reg c) (.reg u)
  | .nandMemImmReg i1 i2 u => .alu nany (.cell i1) (.imm i2) (.reg u)
  | .mskRegRegMem a c i1 => .alu lmul (.reg a) (.reg c) (.cell i1)
  | .mskMemRegReg i1 c u => .alu lmul (.cell i1) (.reg c) (.reg u)
  | .mskMemImmReg i1 i2 u => .alu lmul (.cell i1) (.imm i2) (.reg u)
  | .jmpMem i1 => .jump fun _ => some (.cell i1)
  | .jmpImm i1 => .jump fun _ => some (.imm i1)
  | .jlMem i1 => .jump (whenZf .lam (.cell i1))
  | .jlImm i1 => .jump (whenZf .lam (.imm i1))
  | .jeMem i1 => .jump (whenZf .zero (.cell i1))
  | .jeImm i1 => .jump (whenZf .zero (.imm i1))
  | .jgMem i1 => .jump (whenZf .one (.cell i1))
  | .jgImm i1 => .jump (whenZf .one (.imm i1))
  | .jleMemImm i1 i2 => .jump (threeWay .one (.cell i1) (.imm i2))
  | .jleImmImm i1 i2 => .jump (threeWay .one (.imm i1) (.imm i2))
  | .jleImmMem i1 i2 => .jump (threeWay .one (.imm i2) (.cell i1))
  | .jlgMemImm i1 i2 => .jump (threeWay .zero (.cell i1) (.imm i2))
  | .jlgImmImm i1 i2 => .jump (threeWay .zero (.imm i1) (.imm i2))
  | .jlgImmMem i1 i2 => .jump (threeWay .zero (.imm i2) (.cell i1))
  | .jegMemImm i1 i2 => .jump (threeWay .lam (.cell i1) (.imm i2))
  | .jegImmImm i1 i2 => .jump (threeWay .lam (.imm i1) (.imm i2))
  | .jegImmMem i1 i2 => .jump (threeWay .lam (.imm i2) (.cell i1))
  | .finish => .finish
  | .reboot => .jump fun _ => some (.imm Config.kConst)

/-- To the target, if there is one, and else on past the `len` trytes of the instruction. -/
def jumpOrGoOn (target : Option Operand) (len : Nat) (s : State) : Result :=
  match target with
  | some o => jumpTo o s
  | none => .next (s.advance len)

/-- What an instruction of `len` trytes does, by its form and the model's own operations. -/
def Form.run (f : Form) (len : Nat) (s : State) : Result :=
  match f with
  | .mov src d => movOperand src d len s
  | .alu op p q d => aluOperands op p q d len s
  | .jump target => jumpOrGoOn (target s.zf) len s
  | .finish => execFinish s

theorem simpleJump_eq_jumpOrGoOn (con : Trit) (target : Operand) (s : State) :
    simpleJump con target s = jumpOrGoOn (whenZf con target s.zf) 2 s := by
  unfold simpleJump whenZf State.zfIs
  by_cases h : s.zf = con <;> simp [h, jumpOrGoOn]

/-- The bridge to the model: every instruction is the run of its form. -/
theorem exec_eq_run (i : Instr) (s : State) : exec i s = (formOf i).run (encode i).length s := by
  cases i
  case jlMem | jlImm | jeMem | jeImm | jgMem | jgImm => exact simpleJump_eq_jumpOrGoOn _ _ s
  all_goals rfl

/-! What an instruction's form says of it beside its run: the tables of R24, R47 and R63. -/

/-- The cells whose values an operand needs. -/
def operandCells (o : Operand) : List Tryte :=
  match o with
  | .cell a => [a]
  | .reg _ | .imm _ => []

/-- The registers whose values an operand needs. -/
def operandRegs (o : Operand) : List Reg :=
  match o with
  | .reg r => [r]
  | .cell _ | .imm _ => []

/-- The operands a form reads when ZF is `zf`. -/
def Form.operands (f : Form) (zf : Trit) : List Operand :=
  match f with
  | .mov src _ => [src]
  | .alu _ p q _ => [p, q]
  | .jump target => (target zf).toList
  | .finish => []

def Form.dest (f : Form) : Option Dest :=
  match f with
  | .mov _ d | .alu _ _ _ d => some d
  | .jump _ | .finish => none

def Form.family (f : Form) : Family :=
  match f with
  | .mov .. => .mov
  | .alu .. => .alu
  | .jump _ | .finish => .jxx

theorem familyOf_eq (i : Instr) : familyOf i = (formOf i).family := by cases i <;> rfl

theorem regWritten_eq_some_iff {i : Instr} {r : Reg} : regWritten i = some r ↔ (formOf i).dest = some (.reg r) := by
  cases i <;> simp [regWritten, formOf, Form.dest]

theorem dataWrite_eq_some_iff {i : Instr} {a : Tryte} : dataWrite i = some a ↔ (formOf i).dest = some (.cell a) := by
  cases i <;> simp [dataWrite, formOf, Form.dest]

/-- R47 and R48: the one cell of the table is the one cell among the operands. -/
theorem operands_cells (i : Instr) (zf : Trit) :
    ((formOf i).operands zf).flatMap operandCells = (dataRead i zf).toList := by
  cases i <;> cases zf <;> rfl

/-- R24, in the order in which the operands stand. -/
theorem operands_regs (i : Instr) (zf : Trit) : ((formOf i).operands zf).flatMap operandRegs = regsRead i := by
  cases i <;> cases zf <;> rfl

theorem formOf_eq_finish_iff {i : Instr} : formOf i = .finish ↔ i = .finish := by
  cases i <;> simp [formOf]

/-- Which jumps read ZF (R28): the target of the others does not depend on it. -/
theorem operands_of_not_readsZf {i : Instr} (h : readsZf i = false) (zf zf' : Trit) :
    (formOf i).operands zf = (formOf i).operands zf' := by
  cases i
  case jlMem | jlImm | jeMem | jeImm | jgMem | jgImm | jleMemImm | jleImmImm | jleImmMem | jlgMemImm | jlgImmImm
      | jlgImmMem | jegMemImm | jegImmImm | jegImmMem => cases h
  all_goals rfl

/-- But for `reboot`, a jump's target is an immediate of its own, or the cell its first immediate addresses (R150). -/
theorem target_of_jump {i : Instr} {target : Trit → Option Operand} {zf : Trit} {o : Operand} (hi : i ≠ .reboot)
    (hform : formOf i = .jump target) (ho : target zf = some o) :
    (∃ v ∈ (encode i).tail, o = .imm v) ∨ ∃ i1, (encode i).tail.head? = some i1 ∧ o = .cell i1 := by
  cases i <;> cases hform
  case reboot => exact absurd rfl hi
  all_goals
    cases zf <;> cases ho <;> simp [encode]

end Sys2Proof.Proofs.Forms
end

section
/-! PROOF. What an instruction does to the state, said once: from the state it computes an update, which one rule applies
(`exec_eq_next_iff`). The frames, ZF, the counter and noninterference (10_state.md, 20_memory.md section 3) are facts
about updates. -/

namespace Sys2Proof.Proofs.Updates

open Sys2Proof.Machine Sys2Proof.Safety Sys2Proof.Proofs.Forms

/-- What an instruction that completes does. -/
inductive Update where
  /-- The destination takes the value, and ZF its sign if the family writes ZF. -/
  | write (family : Family) (d : Dest) (v : Tryte)
  | goOn
  | goTo (v : Tryte)
  | finish

/-- The state after the update by an instruction of `len` trytes. -/
def Update.apply (u : Update) (len : Nat) (s : State) : State :=
  match u with
  | .write family d v => d.after v len (s.latchZf family v)
  | .goOn => s.advance len
  | .goTo v => s.setPc v
  | .finish => (s.setPc Config.kConst).halt

/-- The update of each form, from the values of its operands. -/
inductive Computes (s : State) : Form → Update → Prop where
  | mov {src : Operand} {d : Dest} {v : Tryte} (hv : s.operand src = some v) :
      Computes s (.mov src d) (.write .mov d v)
  | alu {op : Tryte → Tryte → Tryte} {p q : Operand} {d : Dest} {x y : Tryte} (hx : s.operand p = some x)
      (hy : s.operand q = some y) : Computes s (.alu op p q d) (.write .alu d (op x y))
  | goTo {target : Trit → Option Operand} {o : Operand} {v : Tryte} (ho : target s.zf = some o)
      (hv : s.operand o = some v) : Computes s (.jump target) (.goTo v)
  | goOn {target : Trit → Option Operand} (hnone : target s.zf = none) : Computes s (.jump target) .goOn
  | finish : Computes s .finish .finish

theorem Computes.run {f : Form} {u : Update} {s : State} (h : Computes s f u) (len : Nat) :
    f.run len s = .next (u.apply len s) := by
  cases h with
  | mov hv => exact movOperand_eq_next.mpr ⟨_, hv, rfl⟩
  | alu hx hy => exact aluOperands_eq_next.mpr ⟨_, hx, _, hy, rfl⟩
  | goTo ho hv => exact (congrArg (jumpOrGoOn · len s) ho).trans (jumpTo_eq_next.mpr ⟨_, hv, rfl⟩)
  | goOn hnone => exact congrArg (jumpOrGoOn · len s) hnone
  | finish => rfl

theorem exists_computes_of_run {f : Form} {len : Nat} {s t : State} (h : f.run len s = .next t) :
    ∃ u, Computes s f u ∧ u.apply len s = t := by
  cases f with
  | mov src d =>
    obtain ⟨v, hv, rfl⟩ := movOperand_eq_next.mp h
    exact ⟨_, .mov hv, rfl⟩
  | alu op p q d =>
    obtain ⟨x, hx, y, hy, rfl⟩ := aluOperands_eq_next.mp h
    exact ⟨_, .alu hx hy, rfl⟩
  | jump target =>
    cases ho : target s.zf with
    | none =>
      simp only [Form.run, jumpOrGoOn, ho, Host.Outcome.next.injEq] at h
      exact ⟨_, .goOn ho, h⟩
    | some o =>
      simp only [Form.run, jumpOrGoOn, ho] at h
      obtain ⟨v, hv, rfl⟩ := jumpTo_eq_next.mp h
      exact ⟨_, .goTo ho hv, rfl⟩
  | finish => exact ⟨_, .finish, Host.Outcome.next.inj h⟩

/-- An instruction that answers a next state has computed an update and applied it. -/
theorem exec_eq_next_iff {i : Instr} {s t : State} :
    exec i s = .next t ↔ ∃ u, Computes s (formOf i) u ∧ u.apply (encode i).length s = t := by
  rw [exec_eq_run]
  exact ⟨exists_computes_of_run, fun ⟨u, hu, ht⟩ => ht ▸ hu.run _⟩

/-! An update keeps to the destination and the family of its form. -/

def Update.dest (u : Update) : Option Dest :=
  match u with
  | .write _ d _ => some d
  | .goOn | .goTo _ | .finish => none

def Update.family (u : Update) : Family :=
  match u with
  | .write family _ _ => family
  | .goOn | .goTo _ | .finish => .jxx

theorem Computes.dest_eq {f : Form} {u : Update} {s : State} (h : Computes s f u) : u.dest = f.dest := by
  cases h <;> rfl

theorem Computes.family_eq {f : Form} {u : Update} {s : State} (h : Computes s f u) : u.family = f.family := by
  cases h <;> rfl

/-! What a destination's write does to each field. -/

section After

variable (d : Dest) (v : Tryte) (len : Nat) (s : State)

@[simp] theorem after_pc : (d.after v len s).pc = succ s.pc len := by cases d <;> simp [Dest.after]
@[simp] theorem after_zf : (d.after v len s).zf = s.zf := by cases d <;> simp [Dest.after]
@[simp] theorem after_halted : (d.after v len s).halted = s.halted := by cases d <;> simp [Dest.after]

theorem after_reg {r : Reg} (h : d ≠ .reg r) : (d.after v len s).reg r = s.reg r := by
  cases d with
  | reg u =>
    have hne : r ≠ u := fun heq => h (heq ▸ rfl)
    simp [Dest.after, hne]
  | cell a => simp [Dest.after]

theorem after_readCell {a : Tryte} (h : d ≠ .cell a) : (d.after v len s).readCell a = s.readCell a := by
  cases d with
  | reg u => simp [Dest.after]
  | cell b =>
    have hne : a ≠ b := fun heq => h (heq ▸ rfl)
    simp [Dest.after, hne]

@[simp] theorem after_reg_same (r : Reg) : ((Dest.reg r).after v len s).reg r = v := by simp [Dest.after]

@[simp] theorem after_readCell_same (a : Tryte) : ((Dest.cell a).after v len s).readCell a = some v := by
  simp [Dest.after]

end After

section LatchZf

variable (s : State) (family : Family) (v : Tryte) (r : Reg) (a : Tryte)

@[simp] theorem latchZf_pc : (s.latchZf family v).pc = s.pc := by cases family <;> simp
@[simp] theorem latchZf_ram : (s.latchZf family v).ram = s.ram := by cases family <;> simp
@[simp] theorem latchZf_halted : (s.latchZf family v).halted = s.halted := by cases family <;> simp
@[simp] theorem latchZf_reg : (s.latchZf family v).reg r = s.reg r := by cases family <;> simp
@[simp] theorem latchZf_readCell : (s.latchZf family v).readCell a = s.readCell a := by cases family <;> simp

end LatchZf

/-! What an update does to each field. -/

section Apply

variable {u : Update} {len : Nat} {s : State}

theorem apply_reg {r : Reg} (h : u.dest ≠ some (.reg r)) : (u.apply len s).reg r = s.reg r := by
  cases u with
  | write family d v =>
    have hd : d ≠ .reg r := fun heq => h (congrArg some heq)
    simp [Update.apply, after_reg _ _ _ _ hd]
  | goOn | goTo v | finish => simp [Update.apply]

theorem apply_readCell {a : Tryte} (h : u.dest ≠ some (.cell a)) : (u.apply len s).readCell a = s.readCell a := by
  cases u with
  | write family d v =>
    have hd : d ≠ .cell a := fun heq => h (congrArg some heq)
    simp [Update.apply, after_readCell _ _ _ _ hd]
  | goOn | goTo v | finish => simp [Update.apply]

theorem apply_zf (h : u.family ≠ .alu) : (u.apply len s).zf = s.zf := by
  cases u with
  | write family d v =>
    cases family with
    | alu => exact absurd rfl h
    | mov | jxx => simp [Update.apply]
  | goOn | goTo v | finish => simp [Update.apply]

theorem apply_pc_write {family : Family} {d : Dest} {v : Tryte} :
    ((Update.write family d v).apply len s).pc = succ s.pc len := by
  simp [Update.apply]

theorem apply_halted : (u.apply len s).halted = true ↔ s.halted = true ∨ u = .finish := by
  cases u <;> simp [Update.apply]

/-- A cell keeps having a value: it has its own still, or the one just stored. -/
theorem apply_readCell_isSome {a : Tryte} (h : (s.readCell a).isSome) : ((u.apply len s).readCell a).isSome := by
  by_cases hdest : u.dest = some (.cell a)
  · cases u <;> cases hdest
    simp [Update.apply]
  · rwa [apply_readCell hdest]

theorem apply_wf (h : Memory.wf s.ram) : Memory.wf (u.apply len s).ram := by
  cases u with
  | write family d v =>
    cases d with
    | reg r => simpa [Update.apply, Dest.after] using h
    | cell a => exact writeCell_wf (s.latchZf family v) a v (by simpa using h)
  | goOn | goTo v | finish => exact h

end Apply

end Sys2Proof.Proofs.Updates
end

section
/-! PROOF. The claims about every instruction at once (10_state.md sections 1 to 3, 20_memory.md section 3): each is a fact
about the update the instruction computes. -/

namespace Sys2Proof.Proofs.Frames

open Sys2Proof.Machine Sys2Proof.Safety Sys2Proof.Proofs.Forms Sys2Proof.Proofs.Updates

/-- Settles O13: the update's destination is the one of the tables. -/
theorem instructionsChangeOnlyTheirDestination : Obligations.InstructionsChangeOnlyTheirDestination := by
  intro i s t h
  obtain ⟨u, hu, rfl⟩ := exec_eq_next_iff.mp h
  refine ⟨fun r hr => apply_reg ?_, fun a ha => apply_readCell ?_⟩
  · rwa [hu.dest_eq, ne_eq, ← regWritten_eq_some_iff]
  · rwa [hu.dest_eq, ne_eq, ← dataWrite_eq_some_iff]

/-- The decoder selects the register of R24 for an instruction that has one, and then leaves RAM idle. -/
theorem controls_of_regWritten {i : Instr} {r : Reg} (h : regWritten i = some r) :
    r = Reg.ofTrit (regAdr (opcodeOf i)) ∧ r = Reg.ofTrit (regCh2 (opcodeOf i)) ∧ regAct (opcodeOf i) = .one ∧
      ramAct (opcodeOf i) = .zero := by
  cases i <;> cases h <;> exact ⟨(ofTrit_trit r).symm, (ofTrit_trit r).symm, rfl, rfl⟩

theorem dataWrite_eq_none_of_regWritten {i : Instr} {r : Reg} (h : regWritten i = some r) : dataWrite i = none := by
  cases i <;> cases h <;> rfl

/-- Settles O14: a register that changes is the destination of R24 by O13, and O13 frames the rest. -/
theorem registerWriteGoesThroughOnePort : Obligations.RegisterWriteGoesThroughOnePort := by
  intro i s t r h hchanged
  obtain ⟨hregs, hcells⟩ := instructionsChangeOnlyTheirDestination i s t h
  have hwritten : regWritten i = some r := by
    by_contra hne
    exact hchanged (hregs r hne)
  obtain ⟨hadr, hch2, hregAct, hramAct⟩ := controls_of_regWritten hwritten
  refine ⟨hadr, hch2, hregAct, hramAct, fun q hq => hregs q ?_, fun a => hcells a ?_⟩
  · simpa [hwritten] using hq.symm
  · simp [dataWrite_eq_none_of_regWritten hwritten]

/-- Settles O15: ZF is latched by the updates of the ALU family, from the value they write. -/
theorem onlyAluWritesZf : Obligations.OnlyAluWritesZf := by
  intro i s t h
  obtain ⟨u, hu, rfl⟩ := exec_eq_next_iff.mp h
  rw [familyOf_eq, ← hu.family_eq]
  refine ⟨apply_zf, fun hfamily => ?_⟩
  simp only [regWritten_eq_some_iff, dataWrite_eq_some_iff, ← hu.dest_eq]
  cases u with
  | write family d v =>
    obtain rfl : family = .alu := hfamily
    refine ⟨fun r hd => ?register, fun a hd => ⟨v, ?cell, ?sign⟩⟩ <;> cases hd
    case register | cell | sign => simp [Update.apply]
  | goOn | goTo v | finish => cases hfamily

theorem dest_eq_none_of_family {f : Form} (h : f.family = .jxx) : f.dest = none := by
  cases f with
  | mov | alu => cases h
  | jump | finish => rfl

/-- Settles O16: the forms of the code-flow family have no destination. -/
theorem codeFlowWritesNothing : Obligations.CodeFlowWritesNothing := by
  intro i s t hfamily h
  obtain ⟨u, hu, rfl⟩ := exec_eq_next_iff.mp h
  rw [familyOf_eq] at hfamily
  have hdest : u.dest = none := hu.dest_eq.trans (dest_eq_none_of_family hfamily)
  exact ⟨fun r => apply_reg (by simp [hdest]), fun a => apply_readCell (by simp [hdest]),
    apply_zf (by simp [hu.family_eq, hfamily])⟩

/-- Settles O17: the updates of the other two families write and go on. -/
theorem movAndAluGoOnSequentially : Obligations.MovAndAluGoOnSequentially := by
  intro i s t hfamily h
  obtain ⟨u, hu, rfl⟩ := exec_eq_next_iff.mp h
  rw [familyOf_eq, ← hu.family_eq] at hfamily
  cases u with
  | write family d v => exact apply_pc_write
  | goOn | goTo v | finish => exact absurd rfl hfamily

/-- Settles O18: an update goes on, goes to the value of a jump's target, or finishes. -/
theorem counterTakesOnlyProgramSuppliedTargets : Obligations.CounterTakesOnlyProgramSuppliedTargets := by
  intro i s t hfinish hreboot h
  obtain ⟨u, hu, rfl⟩ := exec_eq_next_iff.mp h
  generalize hf : formOf i = f at hu
  cases hu with
  | mov | alu => exact .inl apply_pc_write
  | goOn => exact .inl rfl
  | finish => exact absurd (formOf_eq_finish_iff.mp hf) hfinish
  | goTo ho hv =>
    obtain ⟨v, hmem, rfl⟩ | ⟨i1, hhead, rfl⟩ := target_of_jump hreboot hf ho
    · cases hv
      exact .inr (.inl hmem)
    · exact .inr (.inr ⟨i1, hhead, hv⟩)

/-! Noninterference: an update does not depend on what none of the operands reads, and carries a change of that past
itself. -/

/-- A state in which the form reads the same operands, with the same values, computes the same update. -/
theorem computes_congr {f : Form} {u : Update} {s s' : State} (hu : Computes s f u)
    (hoperands : f.operands s'.zf = f.operands s.zf)
    (hvalues : ∀ o ∈ f.operands s.zf, s'.operand o = s.operand o) : Computes s' f u := by
  cases hu with
  | mov hv => exact .mov ((hvalues _ (by simp [Form.operands])).trans hv)
  | alu hx hy =>
    exact .alu ((hvalues _ (by simp [Form.operands])).trans hx) ((hvalues _ (by simp [Form.operands])).trans hy)
  | goTo ho hv =>
    refine .goTo ?_ ((hvalues _ (by simp [Form.operands, ho])).trans hv)
    simpa [Form.operands, ho, Option.toList_eq_singleton_iff] using hoperands
  | goOn hnone => exact .goOn (by simpa [Form.operands, hnone, Option.toList_eq_nil_iff] using hoperands)
  | finish => exact .finish

theorem setZf_operand (s : State) (z : Trit) (o : Operand) : (s.setZf z).operand o = s.operand o := by
  cases o <;> simp [State.operand]

theorem setReg_operand (s : State) {r : Reg} (v : Tryte) {o : Operand} (h : r ∉ operandRegs o) :
    (s.setReg r v).operand o = s.operand o := by
  cases o with
  | reg q =>
    have hne : q ≠ r := by simpa [operandRegs, eq_comm] using h
    simp [State.operand, hne]
  | cell a | imm w => simp [State.operand]

/-- Another ZF beforehand is overwritten by the ALU family, and stays otherwise. -/
theorem apply_setZf (u : Update) (len : Nat) (s : State) (z : Trit) :
    u.apply len (s.setZf z) = if u.family = .alu then u.apply len s else (u.apply len s).setZf z := by
  cases u with
  | write family d v =>
    cases d with
    | reg r => cases family <;> cases r <;> rfl
    | cell a => cases family <;> rfl
  | goOn | goTo v | finish => rfl

/-- Settles O19. -/
theorem zfMattersOnlyToConditionalJumps : Obligations.ZfMattersOnlyToConditionalJumps := by
  intro i z s t hzf h
  obtain ⟨u, hu, rfl⟩ := exec_eq_next_iff.mp h
  have hu' : Computes (s.setZf z) (formOf i) u :=
    computes_congr hu (operands_of_not_readsZf hzf _ _) fun o _ => setZf_operand s z o
  refine ⟨_, exec_eq_next_iff.mpr ⟨u, hu', rfl⟩, ?_⟩
  rw [familyOf_eq, ← hu.family_eq, apply_setZf]
  by_cases hfamily : u.family = .alu <;> simp [hfamily]

/-- Another value in a register beforehand is overwritten if the register is the destination, and stays otherwise. -/
theorem apply_setReg (u : Update) (len : Nat) (s : State) (r : Reg) (v : Tryte) :
    u.apply len (s.setReg r v) =
      if u.dest = some (.reg r) then u.apply len s else (u.apply len s).setReg r v := by
  cases u with
  | write family d w =>
    cases d with
    | reg q => cases family <;> cases r <;> cases q <;> rfl
    | cell a => cases family <;> cases r <;> rfl
  | goOn | goTo w | finish => cases r <;> rfl

/-- Settles O20. -/
theorem unreadRegisterDoesNotMatter : Obligations.UnreadRegisterDoesNotMatter := by
  intro i r v s t hunread h
  obtain ⟨u, hu, rfl⟩ := exec_eq_next_iff.mp h
  rw [← operands_regs i s.zf, List.mem_flatMap] at hunread
  have hu' : Computes (s.setReg r v) (formOf i) u :=
    computes_congr hu (by rw [setReg_zf]) fun o ho => setReg_operand s v fun hr => hunread ⟨o, ho, hr⟩
  refine ⟨_, exec_eq_next_iff.mpr ⟨u, hu', rfl⟩, ?_⟩
  simp only [ne_eq, regWritten_eq_some_iff, ← hu.dest_eq, apply_setReg]
  by_cases hdest : u.dest = some (.reg r)
  · simp [hdest]
  · simp +contextual [hdest]

/-! Completion: an instruction stops only for want of a value, in the one cell it reads. -/

theorem exists_operand_eq {s : State} {o : Operand} (h : ∀ a ∈ operandCells o, (s.readCell a).isSome) :
    ∃ v, s.operand o = some v := by
  cases o with
  | cell a => exact Option.isSome_iff_exists.mp (h a (List.mem_singleton_self a))
  | reg r | imm v => exact ⟨_, rfl⟩

theorem exists_computes {f : Form} {s : State}
    (h : ∀ a ∈ (f.operands s.zf).flatMap operandCells, (s.readCell a).isSome) : ∃ u, Computes s f u := by
  have hoperand : ∀ o ∈ f.operands s.zf, ∃ v, s.operand o = some v := fun o ho =>
    exists_operand_eq fun a ha => h a (List.mem_flatMap.mpr ⟨o, ho, ha⟩)
  cases f with
  | mov src d =>
    obtain ⟨v, hv⟩ := hoperand src (by simp [Form.operands])
    exact ⟨_, .mov hv⟩
  | alu op p q d =>
    obtain ⟨x, hx⟩ := hoperand p (by simp [Form.operands])
    obtain ⟨y, hy⟩ := hoperand q (by simp [Form.operands])
    exact ⟨_, .alu hx hy⟩
  | jump target =>
    cases ho : target s.zf with
    | none => exact ⟨_, .goOn ho⟩
    | some o =>
      obtain ⟨v, hv⟩ := hoperand o (by simp [Form.operands, ho])
      exact ⟨_, .goTo ho hv⟩
  | finish => exact ⟨_, .finish⟩

theorem operandThen_fault {o : Operand} {s : State} {a : Tryte} (k : Tryte → Result) (ho : operandCells o = [a])
    (ha : s.readCell a = none) : operandThen o s k = .fault (.unwrittenCell a) := by
  cases o <;> cases ho
  exact readThen_none ha

theorem run_fault {f : Form} {s : State} {a : Tryte} (len : Nat)
    (hcells : (f.operands s.zf).flatMap operandCells = [a]) (ha : s.readCell a = none) :
    f.run len s = .fault (.unwrittenCell a) := by
  cases f with
  | mov src d =>
    simp only [Form.run, movOperand]
    exact operandThen_fault _ (by simpa [Form.operands] using hcells) ha
  | alu op p q d =>
    simp only [Form.run, aluOperands]
    have happend : operandCells p ++ operandCells q = [a] := by simpa [Form.operands] using hcells
    obtain ⟨hp, hq⟩ | ⟨hp, -⟩ := List.append_eq_singleton_iff.mp happend
    · obtain ⟨x, hx⟩ := exists_operand_eq (s := s) (o := p) (by simp [hp])
      rw [operandThen_some hx]
      exact operandThen_fault _ hq ha
    · exact operandThen_fault _ hp ha
  | jump target =>
    cases ho : target s.zf with
    | none => simp [Form.operands, ho] at hcells
    | some o =>
      have hcell : operandCells o = [a] := by simpa [Form.operands, ho] using hcells
      simp only [Form.run, ho, jumpOrGoOn, jumpTo]
      exact operandThen_fault _ hcell ha
  | finish => cases hcells

/-- Settles O12: the cells among the operands are the one cell of R47 and R48. -/
theorem instructionCompletesUnlessItsCellIsUnwritten : Obligations.InstructionCompletesUnlessItsCellIsUnwritten := by
  intro i s
  have hcells := operands_cells i s.zf
  have hcompletes : (∀ a ∈ dataRead i s.zf, (s.readCell a).isSome) → ∃ t, exec i s = .next t := by
    intro hwritten
    obtain ⟨u, hu⟩ := exists_computes (f := formOf i) (s := s) (by simpa [hcells] using hwritten)
    exact ⟨_, exec_eq_next_iff.mpr ⟨u, hu, rfl⟩⟩
  refine ⟨fun hnone => ?none, fun a v hread hcell => ?written, fun a hread hcell => ?unwritten⟩
  case none => exact hcompletes (by simp [hnone])
  case written => exact hcompletes (by simp [hread, hcell])
  case unwritten =>
    rw [exec_eq_run]
    exact run_fault _ (by rw [hcells, hread]; rfl) hcell

/-- An instruction answers a next state or a fault, and the fault names a cell without a value. -/
theorem exec_completes_or_faults (i : Instr) (s : State) :
    (∃ t, exec i s = .next t) ∨ ∃ a, s.readCell a = none ∧ exec i s = .fault (.unwrittenCell a) := by
  obtain ⟨hnone, hwritten, hunwritten⟩ := instructionCompletesUnlessItsCellIsUnwritten i s
  cases hread : dataRead i s.zf with
  | none => exact .inl (hnone hread)
  | some a =>
    cases hcell : s.readCell a with
    | none => exact .inr ⟨a, hcell, hunwritten a hread hcell⟩
    | some v => exact .inl (hwritten a v hread hcell)

end Sys2Proof.Proofs.Frames
end

section
/-! PROOF. Fetching and stepping (30_encoding.md section 1, 60_exceptions.md section 1, 20_memory.md section 4). A fetch
has three outcomes (`fetchThen_cases`), and the instruction it goes on with is the one whose words stand at the
counter. -/

namespace Sys2Proof.Proofs.Step

open Sys2Proof.Machine Sys2Proof.Safety
open Sys2Proof.Proofs.Arith Sys2Proof.Proofs.Decoder Sys2Proof.Proofs.Forms Sys2Proof.Proofs.Updates
open Sys2Proof.Proofs.Frames

theorem holdsAt_cons {s : State} {a w : Tryte} {ws : List Tryte} :
    s.holdsAt a (w :: ws) = true ↔ s.readCell a = some w ∧ s.holdsAt (succ a 1) ws = true := by
  simp [State.holdsAt]

/-- The fetch goes on with the instruction that the words at the counter decode to. -/
theorem fetchThen_of_decode {s : State} {ws : List Tryte} {i : Instr} (hdecode : decode ws = .ok (i, []))
    (hws : s.holdsAt s.pc ws = true) (k : Instr → Result) : fetchThen s k = k i := by
  unfold decode at hdecode
  split at hdecode
  case h_1 => cases hdecode
  case h_2 op imms =>
    obtain ⟨hop, himms⟩ := holdsAt_cons.mp hws
    split at hdecode
    · cases hdecode
    · next hformat =>
      cases hdecode
      simp [fetchThen, hop, hformat]
    · next _ i1 rest hformat =>
      obtain ⟨hi1, -⟩ := holdsAt_cons.mp himms
      cases hdecode
      simp [fetchThen, hop, hformat, hi1]
    · next _ i1 i2 rest hformat =>
      obtain ⟨hi1, hrest⟩ := holdsAt_cons.mp himms
      obtain ⟨hi2, -⟩ := holdsAt_cons.mp hrest
      rw [succ_succ] at hi2
      cases hdecode
      simp [fetchThen, hop, hformat, hi1, hi2]
    · cases hdecode

theorem fetchThen_of_holdsAt {s : State} {i : Instr} (hws : s.holdsAt s.pc (encode i) = true) (k : Instr → Result) :
    fetchThen s k = k i :=
  fetchThen_of_decode (by simpa using decodeEncodeAgree i []) hws k

/-- The words of an instruction stand at the counter, or the fetch stops, at a cell without a value or at an undefined
opcode. -/
theorem fetchThen_cases (s : State) :
    (∃ i, s.holdsAt s.pc (encode i) = true) ∨
    (∃ a, s.readCell a = none ∧ ∀ k, fetchThen s k = .fault (.unwrittenCell a)) ∨
    (∃ op, s.readCell s.pc = some op ∧ decodeOpcode op = none ∧
      ∀ k, fetchThen s k = .refused (.undefinedOpcode op)) := by
  cases hop : s.readCell s.pc with
  | none => exact .inr (.inl ⟨s.pc, hop, fun k => by simp [fetchThen, hop]⟩)
  | some op =>
    cases hformat : decodeOpcode op with
    | none => exact .inr (.inr ⟨op, rfl, hformat, fun k => by simp [fetchThen, hop, hformat]⟩)
    | some format =>
      have hencode := decodeOpcode_encodes hformat
      cases format with
      | l1 i =>
        have hi : encode i = [op] := hencode
        exact .inl ⟨i, by simp [hi, State.holdsAt, hop]⟩
      | l2 mk =>
        cases hi1 : s.readCell (succ s.pc 1) with
        | none => exact .inr (.inl ⟨_, hi1, fun k => by simp [fetchThen, hop, hformat, hi1]⟩)
        | some i1 => exact .inl ⟨mk i1, by simp [hencode i1, State.holdsAt, hop, hi1]⟩
      | l3 mk =>
        cases hi1 : s.readCell (succ s.pc 1) with
        | none => exact .inr (.inl ⟨_, hi1, fun k => by simp [fetchThen, hop, hformat, hi1]⟩)
        | some i1 =>
          cases hi2 : s.readCell (succ s.pc 2) with
          | none => exact .inr (.inl ⟨_, hi2, fun k => by simp [fetchThen, hop, hformat, hi1, hi2]⟩)
          | some i2 => exact .inl ⟨mk i1 i2, by simp [hencode i1 i2, State.holdsAt, hop, hi1, hi2]⟩

/-! Steps. -/

theorem step_halted {s : State} (h : s.halted = true) : step s = .next s := by simp [step, h]

theorem step_running {s : State} (h : s.halted = false) : step s = fetchThen s fun i => exec i s := by simp [step, h]

theorem step_of_holdsAt {s : State} {i : Instr} (hrun : s.halted = false) (hws : s.holdsAt s.pc (encode i) = true) :
    step s = exec i s := by
  rw [step_running hrun, fetchThen_of_holdsAt hws]

/-- What a step of a running machine is. -/
theorem step_cases {s : State} (hrun : s.halted = false) :
    (∃ i, s.holdsAt s.pc (encode i) = true ∧ step s = exec i s) ∨
    (∃ a, s.readCell a = none ∧ step s = .fault (.unwrittenCell a)) ∨
    (∃ op, s.readCell s.pc = some op ∧ decodeOpcode op = none ∧ step s = .refused (.undefinedOpcode op)) := by
  obtain ⟨i, hws⟩ | ⟨a, ha, hstop⟩ | ⟨op, hop, hnone, hstop⟩ := fetchThen_cases s
  · exact .inl ⟨i, hws, step_of_holdsAt hrun hws⟩
  · exact .inr (.inl ⟨a, ha, (step_running hrun).trans (hstop _)⟩)
  · exact .inr (.inr ⟨op, hop, hnone, (step_running hrun).trans (hstop _)⟩)

/-- A step to a next state keeps a halted machine as it is, or applies the update of the instruction at the counter. -/
theorem step_eq_next_cases {s t : State} (h : step s = .next t) :
    (s.halted = true ∧ t = s) ∨
    ∃ i u, s.halted = false ∧ s.holdsAt s.pc (encode i) = true ∧ Computes s (formOf i) u ∧
      u.apply (encode i).length s = t := by
  cases hhalted : s.halted with
  | true =>
    rw [step_halted hhalted] at h
    exact .inl ⟨rfl, (Host.Outcome.next.inj h).symm⟩
  | false =>
    obtain ⟨i, hws, hstep⟩ | ⟨a, ha, hstep⟩ | ⟨op, hop, hnone, hstep⟩ := step_cases hhalted <;> rw [hstep] at h
    · obtain ⟨u, hu, ht⟩ := exec_eq_next_iff.mp h
      exact .inr ⟨i, u, rfl, hws, hu, ht⟩
    · cases h
    · cases h

/-- Settles O5. -/
theorem haltedMachineChangesNothing : Obligations.HaltedMachineChangesNothing := fun _ h => step_halted h

/-- Settles O7, by induction on the run: each of its states is the halted one, whose step is itself. -/
theorem endedRunStaysEnded : Obligations.EndedRunStaysEnded := by
  intro s t hhalted hreach
  induction hreach with
  | here => rfl
  | step _ hstep ih =>
    rw [ih, step_halted hhalted] at hstep
    exact (Host.Outcome.next.inj hstep).symm

/-- Settles O8. -/
theorem stepRunsDecodedInstruction : Obligations.StepRunsDecodedInstruction := by
  intro s ws i hrun hdecode hws
  rw [step_running hrun, fetchThen_of_decode hdecode hws]

/-- Settles O3: a store is the only update of RAM, and it keeps the canonical form. -/
theorem stepKeepsRamCanonical : Obligations.StepKeepsRamCanonical := by
  intro s t hwf h
  obtain ⟨-, rfl⟩ | ⟨i, u, -, -, -, rfl⟩ := step_eq_next_cases h
  · exact hwf
  · exact apply_wf hwf

/-- Settles O4. -/
theorem writtenCellsStayWritten : Obligations.WrittenCellsStayWritten := by
  intro s t a h ha
  obtain ⟨-, rfl⟩ | ⟨i, u, -, -, -, rfl⟩ := step_eq_next_cases h
  · exact ha
  · exact apply_readCell_isSome ha

theorem encode_eq_opcodeOf_cons (i : Instr) : encode i = opcodeOf i :: (encode i).tail := by cases i <;> rfl

theorem readCell_of_holdsAt {s : State} {a : Tryte} {i : Instr} (h : s.holdsAt a (encode i) = true) :
    s.readCell a = some (opcodeOf i) := by
  rw [encode_eq_opcodeOf_cons] at h
  exact (holdsAt_cons.mp h).1

/-- The opcode of `finish` has no immediates to tell instructions apart. -/
theorem opcodeOf_eq_finish_iff {i : Instr} : opcodeOf i = opcodeOf .finish ↔ i = .finish := by
  cases i <;> simp [opcodeOf, encode]

/-- Settles O6: among the updates only that of `finish` sets `halted`. -/
theorem onlyFinishEndsRun : Obligations.OnlyFinishEndsRun := by
  intro s t hrun h
  obtain ⟨hhalted, -⟩ | ⟨i, u, -, hws, hu, rfl⟩ := step_eq_next_cases h
  · simp [hrun] at hhalted
  have hfinish : u = .finish ↔ formOf i = .finish := by
    generalize formOf i = f at hu
    cases hu <;> simp
  calc (u.apply (encode i).length s).halted = true
    _ ↔ u = .finish := by simp [apply_halted, hrun]
    _ ↔ i = .finish := hfinish.trans formOf_eq_finish_iff
    _ ↔ opcodeOf i = opcodeOf .finish := opcodeOf_eq_finish_iff.symm
    _ ↔ s.readCell s.pc = some (opcodeOf .finish) := by simp [readCell_of_holdsAt hws]

/-- Settles O9: neither an instruction nor a missing value is refused, so the opcode is in no row of the map. -/
theorem stepRefusesExactlyUndefinedOpcodes : Obligations.StepRefusesExactlyUndefinedOpcodes := by
  intro s r
  simp only [← decodeOpcode_eq_none_iff]
  constructor
  case mp =>
    intro h
    cases hhalted : s.halted with
    | true => simp [step_halted hhalted] at h
    | false =>
      obtain ⟨i, -, hstep⟩ | ⟨a, -, hstep⟩ | ⟨op, hop, hnone, hstep⟩ := step_cases hhalted <;> rw [hstep] at h
      · obtain ⟨t, hexec⟩ | ⟨a, -, hexec⟩ := exec_completes_or_faults i s <;> simp [hexec] at h
      · cases h
      · exact ⟨rfl, op, hop, hnone, (Host.Outcome.refused.inj h).symm⟩
  case mpr =>
    rintro ⟨hrun, op, hop, hnone, rfl⟩
    rw [step_running hrun]
    simp [fetchThen, hop, hnone]

/-- Settles O10: the fetch and the instruction fault at a cell without a value only. -/
theorem stepFaultsOnlyOnUnwrittenCells : Obligations.StepFaultsOnlyOnUnwrittenCells := by
  intro s f h
  cases hhalted : s.halted with
  | true => simp [step_halted hhalted] at h
  | false =>
    obtain ⟨i, -, hstep⟩ | ⟨a, ha, hstep⟩ | ⟨op, -, -, hstep⟩ := step_cases hhalted <;> rw [hstep] at h
    · obtain ⟨t, hexec⟩ | ⟨a, ha, hexec⟩ := exec_completes_or_faults i s <;> rw [hexec] at h
      · cases h
      · exact ⟨rfl, a, (Host.Outcome.fault.inj h).symm, ha⟩
    · exact ⟨rfl, a, (Host.Outcome.fault.inj h).symm, ha⟩
    · cases h

/-- Settles O11: where every cell has a value no step faults by O10, and a defined opcode is not refused by O9. -/
theorem stepCompletesWhereCellsAreWritten : Obligations.StepCompletesWhereCellsAreWritten := by
  intro s hcells hdefined
  cases hstep : step s with
  | next t => exact ⟨t, rfl⟩
  | fault f =>
    obtain ⟨-, a, -, ha⟩ := stepFaultsOnlyOnUnwrittenCells s f hstep
    simpa [ha] using hcells a
  | refused r =>
    obtain ⟨hrun, op, hop, hundef, -⟩ := (stepRefusesExactlyUndefinedOpcodes s r).mp hstep
    simp [hrun, hop, hundef] at hdefined

/-- Settles O58: the store completes, the counter stands at the stored opcode, and the next step fetches it there. -/
theorem storeSeenByNextFetch : Obligations.StoreSeenByNextFetch := by
  intro s op j hrun hj hws
  refine ⟨(s.writeCell (succ s.pc 3) op).advance 3, ?store, step_of_holdsAt hrun ?fetch⟩
  case store => exact (step_of_holdsAt hrun hws).trans (exec_movImmMem_eq_next.mpr ⟨op, rfl, rfl⟩)
  case fetch => simp [hj, State.holdsAt]

end Sys2Proof.Proofs.Step
end

section
/-! PROOF. Words stored by the host, and the window in which a store is refused under `SMC = refuse` (log 21, 22;
20_memory.md section 4). -/

namespace Sys2Proof.Proofs.Loading

open Sys2Proof.Machine Sys2Proof.Proofs.Arith Sys2Proof.Proofs.Decoder Sys2Proof.Proofs.Step

theorem load_pc (s : State) (a : Tryte) (ws : List Tryte) : (s.load a ws).pc = s.pc := by
  induction ws generalizing s a with
  | nil => rfl
  | cons w ws ih => exact ih _ _

theorem load_readCell_other {s : State} {a b : Tryte} {ws : List Tryte} (h : ∀ k < ws.length, b ≠ succ a k) :
    (s.load a ws).readCell b = s.readCell b := by
  induction ws generalizing s a with
  | nil => rfl
  | cons w ws ih =>
    have hb : b ≠ a := by simpa using h 0 (by simp)
    calc ((s.writeCell a w).load (succ a 1) ws).readCell b
      _ = (s.writeCell a w).readCell b := ih fun k hk => by simpa [Nat.add_comm] using h (k + 1) (by simpa using hk)
      _ = s.readCell b := writeCell_readCell_other s w hb

/-- Words loaded stand where they were loaded, as long as they do not go round the ring. -/
theorem load_holdsAt (s : State) (a : Tryte) {ws : List Tryte} (h : ws.length ≤ 729) :
    (s.load a ws).holdsAt a ws = true := by
  induction ws generalizing s a with
  | nil => rfl
  | cons w ws ih =>
    rw [List.length_cons] at h
    refine holdsAt_cons.mpr ⟨?_, ih _ _ (by omega)⟩
    have hkept : ∀ k < ws.length, a ≠ succ (succ a 1) k := by
      intro k hk heq
      rw [succ_succ] at heq
      have hround := (succ_eq_succ_iff a 0 (1 + k)).mp (by rw [succ_zero, ← heq])
      omega
    exact (load_readCell_other hkept).trans (writeCell_readCell_same s a w)

theorem holdsAt_congr {s s' : State} (h : ∀ a, s'.readCell a = s.readCell a) (a : Tryte) (ws : List Tryte) :
    s'.holdsAt a ws = s.holdsAt a ws := by
  induction ws generalizing a with
  | nil => rfl
  | cons w ws ih => simp only [State.holdsAt, h, ih]

theorem holdsAt_of_append {s : State} {a : Tryte} {ws ws' : List Tryte} (h : s.holdsAt a (ws ++ ws') = true) :
    s.holdsAt a ws = true := by
  induction ws generalizing a with
  | nil => rfl
  | cons w ws ih =>
    obtain ⟨hw, hws⟩ := holdsAt_cons.mp h
    exact holdsAt_cons.mpr ⟨hw, ih hws⟩

theorem tableTrytes_length {nbits w : Nat} {ws : List Tryte} (h : tableTrytes nbits w = some ws) : ws.length = 3 := by
  unfold tableTrytes at h
  simp only at h
  split at h <;> cases h
  rfl

theorem decodeTableWord_eq_some {nbits w : Nat} {i : Instr} (h : decodeTableWord nbits w = some i) :
    ∃ ws rest, tableTrytes nbits w = some ws ∧ decode ws = .ok (i, rest) := by
  unfold decodeTableWord at h
  split at h
  case h_1 => cases h
  case h_2 ws hws =>
    split at h <;> cases h
    next rest hdecode => exact ⟨ws, rest, hws, hdecode⟩

theorem withFetchWord_of_tableTrytes {s : State} {nbits w : Nat} {ws : List Tryte}
    (h : tableTrytes nbits w = some ws) : (s.withFetchWord nbits w).halted = false ∧
      (s.withFetchWord nbits w).pc = s.pc ∧
      ∀ a, (s.withFetchWord nbits w).readCell a = (s.load s.pc ws).readCell a := by
  unfold State.withFetchWord placeFetchWord
  rw [h]
  exact ⟨rfl, load_pc s s.pc ws, fun _ => rfl⟩

/-- Settles O30: the three trytes stand at the counter of the running machine, and by O23 they begin with the
instruction's own words. -/
theorem hostWordRunsAsFetched : Obligations.HostWordRunsAsFetched := by
  intro s nbits w i h
  obtain ⟨ws, rest, htrytes, hdecode⟩ := decodeTableWord_eq_some h
  obtain ⟨hrun, hpc, hcells⟩ := withFetchWord_of_tableTrytes (s := s) htrytes
  refine step_of_holdsAt hrun ?_
  rw [hpc, holdsAt_congr hcells]
  have hloaded : (s.load s.pc ws).holdsAt s.pc ws = true := load_holdsAt s s.pc (by simp [tableTrytes_length htrytes])
  rw [decodedWordsAreTheEncoding ws rest i hdecode] at hloaded ⊢
  exact holdsAt_of_append hloaded

/-- The three cells are those 0, 1 and 2 on from the following instruction. -/
theorem smcRefuses_refuse_iff {addr next : Tryte} :
    smcRefuses .refuse addr next = true ↔ ∃ k, k ≤ 2 ∧ addr = succ next k := by
  simp only [smcRefuses, Bool.or_eq_true, beq_iff_eq]
  constructor
  · rintro ((h | h) | h)
    · exact ⟨0, by omega, by rw [h, succ_zero]⟩
    · exact ⟨1, by omega, h⟩
    · exact ⟨2, by omega, h⟩
  · rintro ⟨k, hk, rfl⟩
    interval_cases k <;> simp

/-- Settles O59: the window alone decides whether a store is refused. -/
theorem smcRefuseWindow : Obligations.SmcRefuseWindow := by
  intro addr v len s
  have hwindow : smcRefuses .refuse addr (succ s.pc len) = true ↔ ∃ k, k ≤ 2 ∧ addr = succ s.pc (len + k) := by
    simp only [smcRefuses_refuse_iff, succ_succ]
  refine ⟨?refused, fun houtside => ?stored⟩
  case refused => simp [storeNext, ← hwindow]
  case stored =>
    have hpasses : ¬ smcRefuses .refuse addr (succ s.pc len) = true := by
      rw [hwindow]
      rintro ⟨k, hk, heq⟩
      exact houtside k hk heq
    rw [storeNext, if_neg hpasses]
    rfl

end Sys2Proof.Proofs.Loading
end

section
/-! PROOF. Each instruction's own rule (42_alu.md, 43_codeflow.md): its words and its completion, with what changes and
what does not. The instructions of one form complete alike, so that is said once for each form. -/

namespace Sys2Proof.Proofs.Completion

open Sys2Proof.Machine Sys2Proof.Safety Sys2Proof.Proofs.Forms Sys2Proof.Proofs.Updates

theorem exec_of_computes {i : Instr} {f : Form} {u : Update} {s : State} (hform : formOf i = f)
    (hu : Computes s f u) : exec i s = .next (u.apply (encode i).length s) :=
  exec_eq_next_iff.mpr ⟨u, hform ▸ hu, rfl⟩

/-- A register destination takes the ALU's result, ZF its sign, and beside the counter nothing else changes. -/
theorem completes_alu_reg {i : Instr} {op : Tryte → Tryte → Tryte} {p q : Operand} {u : Reg} {x y : Tryte} {s : State}
    (hform : formOf i = .alu op p q (.reg u)) (hx : s.operand p = some x) (hy : s.operand q = some y) :
    Completes i s (WritesRegister u (op x y) (sign (op x y)) (encode i).length) := by
  refine ⟨_, exec_of_computes hform (.alu hx hy), ?_⟩
  simpa [WritesRegister, Update.apply] using Mov.writesRegister_after u (op x y) (encode i).length (s.latchZf .alu (op x y))

/-- A cell destination takes the ALU's result, ZF its sign, and beside the counter nothing else changes. -/
theorem completes_alu_cell {i : Instr} {op : Tryte → Tryte → Tryte} {p q : Operand} {a x y : Tryte} {s : State}
    (hform : formOf i = .alu op p q (.cell a)) (hx : s.operand p = some x) (hy : s.operand q = some y) :
    Completes i s (WritesCell a (op x y) (sign (op x y)) (encode i).length) := by
  refine ⟨_, exec_of_computes hform (.alu hx hy), ?_⟩
  simpa [WritesCell, Update.apply] using Mov.writesCell_after a (op x y) (encode i).length (s.latchZf .alu (op x y))

/-- Settles O36. -/
theorem addInAllForms : Obligations.AddInAllForms :=
  ⟨fun _ _ _ _ => ⟨rfl, completes_alu_cell rfl rfl rfl⟩,
    fun _ _ _ _ _ hcell => ⟨rfl, completes_alu_reg rfl hcell rfl⟩,
    fun _ _ _ _ _ hcell => ⟨rfl, completes_alu_reg rfl hcell rfl⟩⟩

/-- Settles O37: `sub` is the Adder with its second operand negated. -/
theorem subInAllForms : Obligations.SubInAllForms :=
  ⟨fun _ _ _ _ => ⟨rfl, completes_alu_cell (op := subT) rfl rfl rfl⟩,
    fun _ _ _ _ _ hcell => ⟨rfl, completes_alu_reg (op := subT) rfl hcell rfl⟩,
    fun _ _ _ _ _ hcell => ⟨rfl, completes_alu_reg (op := subT) rfl hcell rfl⟩⟩

/-- Settles O38: `nany` is the open parameter. -/
theorem nandInAllForms : Obligations.NandInAllForms :=
  ⟨fun _ _ _ _ => ⟨rfl, completes_alu_cell (op := nany) rfl rfl rfl⟩,
    fun _ _ _ _ _ hcell => ⟨rfl, completes_alu_reg (op := nany) rfl hcell rfl⟩,
    fun _ _ _ _ _ hcell => ⟨rfl, completes_alu_reg (op := nany) rfl hcell rfl⟩⟩

/-- Settles O39: `lmul` is the open parameter. -/
theorem mskInAllForms : Obligations.MskInAllForms :=
  ⟨fun _ _ _ _ => ⟨rfl, completes_alu_cell (op := lmul) rfl rfl rfl⟩,
    fun _ _ _ _ _ hcell => ⟨rfl, completes_alu_reg (op := lmul) rfl hcell rfl⟩,
    fun _ _ _ _ _ hcell => ⟨rfl, completes_alu_reg (op := lmul) rfl hcell rfl⟩⟩

/-- Settles O54: in range the Adder's result is the difference itself, whose sign compares. -/
theorem subComparesExactlyInRange : Obligations.SubComparesExactlyInRange := by
  intro i1 x c u s hcell hlow hhigh
  obtain ⟨-, hforms, -⟩ := subInAllForms
  obtain ⟨-, t, hexec, -, -, -, hzf, -⟩ := hforms i1 x c u s hcell
  have hval : val (addT x (negT (s.reg c))) = val x - val (s.reg c) := by
    have hneg := Arith.val_negT (s.reg c)
    obtain ⟨-, -, -, hexact⟩ := Arith.adderWrapsModulo729 x (negT (s.reg c))
    omega
  refine ⟨t, hexec, ?_⟩
  rw [hzf, Arith.sign_eq_lam_iff, Arith.sign_eq_zero_iff, Arith.sign_eq_one_iff, hval, ← val_inj]
  omega

/-! Jumps: taken, the counter is the target; not taken, it is the next instruction. -/

theorem completes_jump_taken {i : Instr} {target : Trit → Option Operand} {o : Operand} {v : Tryte} {s : State}
    (hform : formOf i = .jump target) (ho : target s.zf = some o) (hv : s.operand o = some v) :
    Completes i s (OnlyMovesTo v) :=
  ⟨_, exec_of_computes hform (.goTo ho hv), Jmp.onlyMovesTo_setPc v s⟩

theorem completes_jump_not_taken {i : Instr} {target : Trit → Option Operand} {s : State}
    (hform : formOf i = .jump target) (hnone : target s.zf = none) :
    Completes i s (OnlyMovesTo (succ s.pc (encode i).length)) :=
  ⟨_, exec_of_computes hform (.goOn hnone), Jmp.onlyMovesTo_setPc _ s⟩

theorem whenZf_taken {con zf : Trit} (o : Operand) (h : zf = con) : whenZf con o zf = some o := if_pos h
theorem whenZf_not_taken {con zf : Trit} (o : Operand) (h : zf ≠ con) : whenZf con o zf = none := if_neg h

/-- A simple-condition jump in its two forms, for any condition (R151, D9). -/
theorem simpleJump_completes {con : Trit} {mem imm : Tryte → Instr}
    (hmem : ∀ i1, formOf (mem i1) = .jump (whenZf con (.cell i1)))
    (himm : ∀ i1, formOf (imm i1) = .jump (whenZf con (.imm i1))) :
    (∀ (i1 v : Tryte) (s : State), s.zf = con → s.readCell i1 = some v → Completes (mem i1) s (OnlyMovesTo v)) ∧
    (∀ (i1 : Tryte) (s : State), s.zf = con → Completes (imm i1) s (OnlyMovesTo i1)) ∧
    ∀ (i1 : Tryte) (s : State), s.zf ≠ con →
      Completes (mem i1) s (OnlyMovesTo (succ s.pc (encode (mem i1)).length)) ∧
      Completes (imm i1) s (OnlyMovesTo (succ s.pc (encode (imm i1)).length)) := by
  refine ⟨fun i1 v s hzf hcell => ?cell, fun i1 s hzf => ?immediate, fun i1 s hzf => ⟨?memOn, ?immOn⟩⟩
  case cell => exact completes_jump_taken (hmem i1) (whenZf_taken _ hzf) hcell
  case immediate => exact completes_jump_taken (himm i1) (whenZf_taken _ hzf) rfl
  case memOn => exact completes_jump_not_taken (hmem i1) (whenZf_not_taken _ hzf)
  case immOn => exact completes_jump_not_taken (himm i1) (whenZf_not_taken _ hzf)

/-- Settles O41. -/
theorem jlJumpsOnItsCondition : Obligations.JlJumpsOnItsCondition :=
  ⟨fun _ => ⟨rfl, rfl⟩, simpleJump_completes (mem := .jlMem) (imm := .jlImm) (fun _ => rfl) fun _ => rfl⟩

/-- Settles O42. -/
theorem jeJumpsOnItsCondition : Obligations.JeJumpsOnItsCondition :=
  ⟨fun _ => ⟨rfl, rfl⟩, simpleJump_completes (mem := .jeMem) (imm := .jeImm) (fun _ => rfl) fun _ => rfl⟩

/-- Settles O43. -/
theorem jgJumpsOnItsCondition : Obligations.JgJumpsOnItsCondition :=
  ⟨fun _ => ⟨rfl, rfl⟩, simpleJump_completes (mem := .jgMem) (imm := .jgImm) (fun _ => rfl) fun _ => rfl⟩

theorem threeWay_lower {e zf : Trit} (a b : Operand) (h : zf = (otherOutcomes e).1) :
    threeWay e a b zf = some a := by
  cases e <;> cases h <;> rfl

theorem threeWay_upper {e zf : Trit} (a b : Operand) (h : zf = (otherOutcomes e).2) :
    threeWay e a b zf = some b := by
  cases e <;> cases h <;> rfl

theorem threeWay_excluded {e zf : Trit} (a b : Operand) (h : zf = e) : threeWay e a b zf = none := by
  cases e <;> cases h <;> rfl

/-- A complex-condition jump in its three forms, for any excluded outcome: the lower of the other two goes to the first
target, the upper to the second (R152, D10). -/
theorem complexJump_completes {e : Trit} {memImm immImm immMem : Tryte → Tryte → Instr}
    (hmemImm : ∀ i1 i2, formOf (memImm i1 i2) = .jump (threeWay e (.cell i1) (.imm i2)))
    (himmImm : ∀ i1 i2, formOf (immImm i1 i2) = .jump (threeWay e (.imm i1) (.imm i2)))
    (himmMem : ∀ i1 i2, formOf (immMem i1 i2) = .jump (threeWay e (.imm i2) (.cell i1))) :
    (∀ (i1 i2 v : Tryte) (s : State), s.zf = (otherOutcomes e).1 → s.readCell i1 = some v →
      Completes (memImm i1 i2) s (OnlyMovesTo v)) ∧
    (∀ (i1 i2 : Tryte) (s : State), s.zf = (otherOutcomes e).1 →
      Completes (immImm i1 i2) s (OnlyMovesTo i1) ∧ Completes (immMem i1 i2) s (OnlyMovesTo i2)) ∧
    (∀ (i1 i2 v : Tryte) (s : State), s.zf = (otherOutcomes e).2 → s.readCell i1 = some v →
      Completes (immMem i1 i2) s (OnlyMovesTo v)) ∧
    (∀ (i1 i2 : Tryte) (s : State), s.zf = (otherOutcomes e).2 →
      Completes (memImm i1 i2) s (OnlyMovesTo i2) ∧ Completes (immImm i1 i2) s (OnlyMovesTo i2)) ∧
    ∀ (i1 i2 : Tryte) (s : State), s.zf = e →
      Completes (memImm i1 i2) s (OnlyMovesTo (succ s.pc (encode (memImm i1 i2)).length)) ∧
      Completes (immImm i1 i2) s (OnlyMovesTo (succ s.pc (encode (immImm i1 i2)).length)) ∧
      Completes (immMem i1 i2) s (OnlyMovesTo (succ s.pc (encode (immMem i1 i2)).length)) := by
  refine ⟨fun i1 i2 v s hzf hcell => ?lowerCell, fun i1 i2 s hzf => ?lowerImmediate,
    fun i1 i2 v s hzf hcell => ?upperCell, fun i1 i2 s hzf => ?upperImmediate, fun i1 i2 s hzf => ?excluded⟩
  case lowerCell => exact completes_jump_taken (hmemImm i1 i2) (threeWay_lower _ _ hzf) hcell
  case lowerImmediate =>
    exact ⟨completes_jump_taken (himmImm i1 i2) (threeWay_lower _ _ hzf) rfl,
      completes_jump_taken (himmMem i1 i2) (threeWay_lower _ _ hzf) rfl⟩
  case upperCell => exact completes_jump_taken (himmMem i1 i2) (threeWay_upper _ _ hzf) hcell
  case upperImmediate =>
    exact ⟨completes_jump_taken (hmemImm i1 i2) (threeWay_upper _ _ hzf) rfl,
      completes_jump_taken (himmImm i1 i2) (threeWay_upper _ _ hzf) rfl⟩
  case excluded =>
    exact ⟨completes_jump_not_taken (hmemImm i1 i2) (threeWay_excluded _ _ hzf),
      completes_jump_not_taken (himmImm i1 i2) (threeWay_excluded _ _ hzf),
      completes_jump_not_taken (himmMem i1 i2) (threeWay_excluded _ _ hzf)⟩

/-- Settles O44: the excluded outcome is 1. -/
theorem jleJumpsThreeWays : Obligations.JleJumpsThreeWays :=
  ⟨fun _ _ => ⟨rfl, rfl, rfl⟩,
    complexJump_completes (memImm := .jleMemImm) (immImm := .jleImmImm) (immMem := .jleImmMem)
      (fun _ _ => rfl) (fun _ _ => rfl) fun _ _ => rfl⟩

/-- Settles O45: the excluded outcome is 0. -/
theorem jlgJumpsThreeWays : Obligations.JlgJumpsThreeWays :=
  ⟨fun _ _ => ⟨rfl, rfl, rfl⟩,
    complexJump_completes (memImm := .jlgMemImm) (immImm := .jlgImmImm) (immMem := .jlgImmMem)
      (fun _ _ => rfl) (fun _ _ => rfl) fun _ _ => rfl⟩

/-- Settles O46: the excluded outcome is λ. -/
theorem jegJumpsThreeWays : Obligations.JegJumpsThreeWays :=
  ⟨fun _ _ => ⟨rfl, rfl, rfl⟩,
    complexJump_completes (memImm := .jegMemImm) (immImm := .jegImmImm) (immMem := .jegImmMem)
      (fun _ _ => rfl) (fun _ _ => rfl) fun _ _ => rfl⟩

/-- Settles O47: loading the counter and halting touch no register, no cell and not ZF. -/
theorem finishHaltsAtKConst : Obligations.FinishHaltsAtKConst := by
  refine ⟨rfl, fun s => ⟨(s.setPc Config.kConst).halt, exec_finish_eq_next.mpr rfl, rfl, rfl, fun r => ?registers,
    fun _ => rfl, rfl⟩⟩
  case registers => simp

/-- Settles O48: a jump whose target is the constant. -/
theorem rebootOnlyMovesToKConst : Obligations.RebootOnlyMovesToKConst :=
  ⟨rfl, fun _ => completes_jump_taken (o := .imm Config.kConst) rfl rfl rfl⟩

/-- Settles O57: the readings part at the excluded outcome, where only one jumps, and at the upper one, where they take
different targets. -/
theorem complexJumpReadings : Obligations.ComplexJumpReadings := by
  refine ⟨fun e zf a b hne => ?different, fun e zf a => ?same⟩
  case different => cases e <;> cases zf <;> simp [complexTarget, otherOutcomes, hne.symm]
  case same => cases e <;> cases zf <;> rfl

/-- Settles O1: RESET_IC, the registers and ZF are the values the model's configuration gives them. -/
theorem resetState : Obligations.ResetState := by
  refine ⟨rfl, fun a => ?cells, rfl, rfl, fun r => ?registers, rfl⟩
  case cells => rfl
  case registers => cases r <;> rfl

/-- Settles O2: no cell is listed. -/
theorem resetRamIsCanonical : Obligations.ResetRamIsCanonical :=
  ⟨List.Pairwise.nil, fun _ h => nomatch h⟩

end Sys2Proof.Proofs.Completion
end

section
/-! PROOF. The data path refines the per-instruction rules (40_datapath_and_decoder.md section 3). The lines the selectors
feed are named first (R112); then each kind of row is followed through the four actions: a register write, a store, and
the three kinds of jump. -/

namespace Sys2Proof.Proofs.DataPath

open Sys2Proof.Machine

/-! The lines of the data path. -/

/-- The second operand of the ALU, after `op2-mod` (R94, R95). -/
def secondOperand (op i1 i2 : Tryte) (s : State) : Tryte :=
  sel (op2Mod op) (negT (sel (aluOp2 op) i1 (s.reg (.ofTrit op.t1)) i2)) (sel (aluOp2 op) i1 (s.reg (.ofTrit op.t1)) i2)
    Config.kConst

/-- The ALU's output (R92, R93). -/
def aluLine (op i1 i2 : Tryte) (s : State) : Option Tryte :=
  (sel (aluOp1 op) (s.readCell i1) (some (s.reg (.ofTrit op.t0))) (some s.pc)).map fun p =>
    sel (aluAct op) (addT p (secondOperand op i1 i2 s)) (nany p (secondOperand op i1 i2 s))
      (lmul p (secondOperand op i1 i2 s))

/-- What `reg-src` selects (R85). -/
def registerLine (op i1 i2 : Tryte) (s : State) : Option Tryte :=
  sel (regSrc op) (s.readCell i1) (some (s.reg (.ofTrit op.t1))) (aluLine op i1 i2 s)

/-- What `ram-src` selects (R90). -/
def ramLine (op i1 i2 : Tryte) (s : State) : Option Tryte :=
  sel (ramSrc op) (some (s.reg (.ofTrit op.t1))) (some i2) (aluLine op i1 i2 s)

/-- The address of the next sequential instruction (R80). -/
def nextAddress (op : Tryte) (s : State) : Tryte := succ s.pc (lengthOf (insLen op))

/-- What `ic-src` selects (R81). -/
def counterLine (op i1 i2 : Tryte) (s : State) : Option Tryte :=
  sel (icSrc op) (s.readCell i1) (some (nextAddress op s)) (some (secondOperand op i1 i2 s))

/-- The generic step in terms of its lines. -/
theorem dataPathStep_eq {op : Tryte} (i1 i2 : Tryte) (s : State) (hdefined : definedOpcode op = true) :
    dataPathStep op i1 i2 s =
      registerAction (controls op) (registerLine op i1 i2 s) i1 s fun s1 =>
        ramAction (controls op) (ramLine op i1 i2 s) i1 (nextAddress op s) s1 fun s2 =>
          flagAction op (aluLine op i1 i2 s) i1 s2 fun s3 =>
            finishAction op (counterAction op (counterLine op i1 i2 s) i1 i2 (nextAddress op s) s3) :=
  if_pos hdefined

theorem finishAction_of_running {op : Tryte} (h : ¬ op.t4 = .one) (r : Result) : finishAction op r = r := by
  cases r <;> simp [finishAction, h]

/-- A line that carries an operand's value is consumed as the operand is, its cell being the one at i1 (R107). -/
theorem consume_cell (s : State) (i1 : Tryte) (k : Tryte → Result) :
    consume (s.readCell i1) i1 k = operandThen (.cell i1) s k := by
  cases h : s.readCell i1 <;> simp [operandThen, h]

/-! The kinds of rows. -/

section Rows

variable {op i1 i2 : Tryte} {s : State}

theorem counterAction_sequential (hseq : op.t5 ≠ .lam) (s' : State) :
    finishAction op (counterAction op (counterLine op i1 i2 s) i1 i2 (nextAddress op s) s') =
      .next (s'.setPc (nextAddress op s)) := by
  simp [counterAction, controls, counterLine, jmpTyp, icSrc, hseq, sel, finishAction]

/-- A MOV or ALU row that writes a register. -/
theorem dataPathStep_register (hdefined : definedOpcode op = true) (hseq : op.t5 ≠ .lam) (hact : regAct op = .one) :
    dataPathStep op i1 i2 s =
      consume (registerLine op i1 i2 s) i1 fun v =>
        flagAction op (aluLine op i1 i2 s) i1 (s.setReg (.ofTrit op.t0) v) fun s' =>
          .next (s'.setPc (nextAddress op s)) := by
  simp only [dataPathStep_eq i1 i2 s hdefined, counterAction_sequential hseq]
  simp [registerAction, ramAction, controls, ramAct, regAdr, hact, sel]

/-- A MOV or ALU row that stores. -/
theorem dataPathStep_store (hdefined : definedOpcode op = true) (hseq : op.t5 ≠ .lam) (hact : regAct op = .zero) :
    dataPathStep op i1 i2 s =
      consume (ramLine op i1 i2 s) i1 fun v =>
        flagAction op (aluLine op i1 i2 s) i1 (s.writeCell i1 v) fun s' =>
          .next (s'.setPc (nextAddress op s)) := by
  simp only [dataPathStep_eq i1 i2 s hdefined, counterAction_sequential hseq]
  simp [registerAction, ramAction, controls, ramAct, hact, hseq, sel, smcRefuses, Config.smc]

/-- A code-flow row: only the counter acts. -/
theorem dataPathStep_codeFlow (hdefined : definedOpcode op = true) (hjxx : op.t5 = .lam) :
    dataPathStep op i1 i2 s =
      finishAction op (counterAction op (counterLine op i1 i2 s) i1 i2 (nextAddress op s) s) := by
  rw [dataPathStep_eq i1 i2 s hdefined]
  simp [registerAction, ramAction, flagAction, opcodeFamily, controls, regAct, ramAct, hjxx, sel]

/-- A simple-condition row tests ZF for T1, as T2 is 1 (R82, R83). -/
theorem dataPathStep_simpleJump {target : Operand} (hdefined : definedOpcode op = true) (hjxx : op.t5 = .lam)
    (ht4 : op.t4 = .zero) (ht2 : op.t2 = .one)
    (hline : ∀ k, consume (counterLine op i1 i2 s) i1 k = operandThen target s k) :
    dataPathStep op i1 i2 s = simpleJump op.t1 target s := by
  rw [dataPathStep_codeFlow hdefined hjxx, finishAction_of_running (by simp [ht4])]
  simp only [counterAction, controls, jmpTyp, jmpCon, hjxx, ht2, if_true, sel, hline]
  simp [simpleJump, State.zfIs, jumpTo, State.advance, nextAddress, insLen, lengthOf, hjxx, ht4, ht2, sel]

/-- A complex-condition row, as T2 is λ, takes its targets from T3 and T0 and leaves out the outcome T1 (R152, C3). -/
theorem dataPathStep_complexJump {a b : Operand} (hdefined : definedOpcode op = true) (hjxx : op.t5 = .lam)
    (ht4 : op.t4 = .zero) (ht2 : op.t2 = .lam) (hform : complexForm op.t3 op.t0 i1 i2 = some (a, b)) :
    dataPathStep op i1 i2 s = complexJump Config.cjReading op.t1 a b s := by
  rw [dataPathStep_codeFlow hdefined hjxx, finishAction_of_running (by simp [ht4])]
  simp only [counterAction, controls, jmpTyp, jmpCon, icSrc, aluOp2, hjxx, ht2, if_true, sel, hform]
  unfold complexJump
  cases complexTarget Config.cjReading op.t1 s.zf a b with
  | none => simp [State.advance, nextAddress, insLen, lengthOf, hjxx, ht4, ht2, sel]
  | some target => rfl

end Rows

/-! The rows of the MOV family. -/

/-- A row that moves an operand's value into the register of T0. -/
theorem movRegister_row {op i1 i2 : Tryte} {s : State} {src : Operand} {u : Reg} {len : Nat}
    (hdefined : definedOpcode op = true) (hact : regAct op = .one) (hmov : opcodeFamily op = .mov)
    (hline : ∀ k, consume (registerLine op i1 i2 s) i1 k = operandThen src s k) (hu : Reg.ofTrit op.t0 = u)
    (hlen : lengthOf (insLen op) = len) : dataPathStep op i1 i2 s = movOperand src (.reg u) len s := by
  have hseq : op.t5 ≠ .lam := fun h => by simp [opcodeFamily, h] at hmov
  rw [dataPathStep_register hdefined hseq hact, hline]
  simp [flagAction, hmov, movOperand, Dest.after, State.advance, nextAddress, hlen, hu]

theorem movRegReg_row (a u : Reg) (i1 i2 : Tryte) (s : State) :
    dataPathStep ⟨.one, .lam, .lam, .zero, a.trit, u.trit⟩ i1 i2 s = movOperand (.reg a) (.reg u) 1 s :=
  movRegister_row rfl rfl rfl (fun _ => by cases a <;> rfl) (ofTrit_trit u) rfl

theorem movMemReg_row (u : Reg) (i1 i2 : Tryte) (s : State) :
    dataPathStep ⟨.one, .zero, .lam, .zero, .zero, u.trit⟩ i1 i2 s = movOperand (.cell i1) (.reg u) 2 s :=
  movRegister_row rfl rfl rfl (consume_cell s i1) (ofTrit_trit u) rfl

theorem movRegMem_row (a : Reg) (i1 i2 : Tryte) (s : State) :
    dataPathStep ⟨.one, .lam, .one, .zero, a.trit, .zero⟩ i1 i2 s = movOperand (.reg a) (.cell i1) 2 s := by
  rw [dataPathStep_store]
  case hseq => nofun
  all_goals cases a <;> rfl

theorem movImmMem_row (i1 i2 : Tryte) (s : State) :
    dataPathStep ⟨.one, .one, .one, .zero, .zero, .zero⟩ i1 i2 s = movOperand (.imm i2) (.cell i1) 3 s := by
  rw [dataPathStep_store]
  case hseq => nofun
  all_goals rfl

/-! The rows of the ALU family, one for each form: T3 and T2 choose the operation. -/

/-- What `alu-act` and `op2-mod` make of the two operands (R92, R95). -/
def aluFunction (t3 t2 : Trit) (p q : Tryte) : Tryte :=
  sel t3 (addT p (sel t2 (negT q) q Config.kConst)) (nany p (sel t2 (negT q) q Config.kConst))
    (lmul p (sel t2 (negT q) q Config.kConst))

theorem definedOpcode_alu {t4 t3 t2 t1 t0 : Trit} (hop : definedAluOp t3 t2 = true)
    (ht4 : t4 ≠ .one ∨ t1 = .zero) : definedOpcode ⟨.zero, t4, t3, t2, t1, t0⟩ = true := by
  cases t4 <;> simp_all [definedOpcode, definedAlu]

theorem setZf_setReg (s : State) (u : Reg) (v : Tryte) (z : Trit) :
    (s.setReg u v).setZf z = (s.setZf z).setReg u v := by
  cases u <;> rfl

/-- A row that loads its first operand and writes a register: ZF is latched after the write here, before it in `exec`. -/
theorem aluLoad_row {op i1 i2 q : Tryte} {s : State} {f : Tryte → Tryte → Tryte} {o : Operand} {u : Reg} {len : Nat}
    (hdefined : definedOpcode op = true) (hact : regAct op = .one) (halu : opcodeFamily op = .alu)
    (hline : aluLine op i1 i2 s = (s.readCell i1).map (f · q)) (hsrc : regSrc op = .one) (ho : s.operand o = some q)
    (hu : Reg.ofTrit op.t0 = u) (hlen : lengthOf (insLen op) = len) :
    dataPathStep op i1 i2 s = aluOperands f (.cell i1) o (.reg u) len s := by
  have hseq : op.t5 ≠ .lam := fun h => by simp [opcodeFamily, h] at halu
  rw [dataPathStep_register hdefined hseq hact]
  cases hcell : s.readCell i1 with
  | none => simp [registerLine, hsrc, sel, hline, hcell, aluOperands, operandThen]
  | some x =>
    have hx : s.operand (.cell i1) = some x := hcell
    simp [registerLine, hsrc, sel, hline, hcell, aluOperands, operandThen_some hx, operandThen_some ho, flagAction, halu,
      setZf_setReg, Dest.after, State.advance, nextAddress, hlen, hu]

theorem regRegMem_row {t3 t2 : Trit} (hop : definedAluOp t3 t2 = true) (a c : Reg) (i1 i2 : Tryte) (s : State) :
    dataPathStep ⟨.zero, .lam, t3, t2, c.trit, a.trit⟩ i1 i2 s = aluRegRegMem (aluFunction t3 t2) a c i1 s := by
  rw [dataPathStep_store]
  case hdefined => exact definedOpcode_alu hop (.inl nofun)
  case hseq => nofun
  all_goals cases a <;> cases c <;> rfl

theorem memRegReg_row {t3 t2 : Trit} (hop : definedAluOp t3 t2 = true) (c u : Reg) (i1 i2 : Tryte) (s : State) :
    dataPathStep ⟨.zero, .zero, t3, t2, c.trit, u.trit⟩ i1 i2 s = aluMemRegReg (aluFunction t3 t2) i1 c u s :=
  aluLoad_row (definedOpcode_alu hop (.inl nofun)) rfl rfl (by cases c <;> rfl) rfl rfl (ofTrit_trit u) rfl

theorem memImmReg_row {t3 t2 : Trit} (hop : definedAluOp t3 t2 = true) (u : Reg) (i1 i2 : Tryte) (s : State) :
    dataPathStep ⟨.zero, .one, t3, t2, .zero, u.trit⟩ i1 i2 s = aluMemImmReg (aluFunction t3 t2) i1 i2 u s :=
  aluLoad_row (definedOpcode_alu hop (.inr rfl)) rfl rfl rfl rfl rfl (ofTrit_trit u) rfl

/-! The rows of the code-flow family that always jump, as T2 is 0. -/

theorem dataPathStep_jump {op i1 i2 : Tryte} {s : State} (hdefined : definedOpcode op = true) (hjxx : op.t5 = .lam)
    (ht2 : op.t2 = .zero) :
    dataPathStep op i1 i2 s =
      finishAction op (consume (counterLine op i1 i2 s) i1 fun v => .next (s.setPc v)) := by
  rw [dataPathStep_codeFlow hdefined hjxx]
  simp [counterAction, controls, jmpTyp, hjxx, ht2, sel]

theorem jmpMem_row (i1 i2 : Tryte) (s : State) :
    dataPathStep ⟨.lam, .zero, .lam, .zero, .zero, .zero⟩ i1 i2 s = jumpTo (.cell i1) s := by
  rw [dataPathStep_jump, finishAction_of_running]
  case h => nofun
  case hdefined | hjxx | ht2 => rfl
  exact consume_cell s i1 _

/-- The immediate comes to the counter through the ALU's second operand, as `alu-op2` selects it. -/
theorem jmpImm_row (i1 i2 : Tryte) (s : State) :
    dataPathStep ⟨.lam, .zero, .one, .zero, .zero, .lam⟩ i1 i2 s = jumpTo (.imm i1) s := by
  rw [dataPathStep_jump]
  all_goals rfl

theorem finish_row (i1 i2 : Tryte) (s : State) :
    dataPathStep ⟨.lam, .one, .one, .zero, .zero, .zero⟩ i1 i2 s = execFinish s := by
  rw [dataPathStep_jump]
  all_goals rfl

theorem reboot_row (i1 i2 : Tryte) (s : State) :
    dataPathStep ⟨.lam, .lam, .one, .zero, .zero, .zero⟩ i1 i2 s = execReboot s := by
  rw [dataPathStep_jump]
  all_goals rfl

/-! The rows of the conditional jumps. -/

theorem definedOpcode_simpleMem (con : Trit) : definedOpcode ⟨.lam, .zero, .lam, .one, con, .zero⟩ = true := by
  cases con <;> rfl

theorem definedOpcode_simpleImm (con : Trit) : definedOpcode ⟨.lam, .zero, .one, .one, con, .lam⟩ = true := by
  cases con <;> rfl

theorem simpleMem_row (con : Trit) (i1 i2 : Tryte) (s : State) :
    dataPathStep ⟨.lam, .zero, .lam, .one, con, .zero⟩ i1 i2 s = simpleJump con (.cell i1) s :=
  dataPathStep_simpleJump (definedOpcode_simpleMem con) rfl rfl rfl (consume_cell s i1)

theorem simpleImm_row (con : Trit) (i1 i2 : Tryte) (s : State) :
    dataPathStep ⟨.lam, .zero, .one, .one, con, .lam⟩ i1 i2 s = simpleJump con (.imm i1) s :=
  dataPathStep_simpleJump (definedOpcode_simpleImm con) rfl rfl rfl fun _ => rfl

theorem complex_row {t3 t0 : Trit} {i1 i2 : Tryte} {a b : Operand} (hform : complexForm t3 t0 i1 i2 = some (a, b))
    (e : Trit) (s : State) :
    dataPathStep ⟨.lam, .zero, t3, .lam, e, t0⟩ i1 i2 s = complexJump Config.cjReading e a b s := by
  have hdefined : definedOpcode ⟨.lam, .zero, t3, .lam, e, t0⟩ = true := by
    cases t3 <;> cases t0 <;> cases hform <;> cases e <;> rfl
  exact dataPathStep_complexJump hdefined rfl rfl rfl hform

/-- Settles O29: the words fix the opcode and the immediates the instruction has, and its row is followed through the
data path. -/
theorem dataPathRefinesInstructionSet : Obligations.DataPathRefinesInstructionSet := by
  intro i op i1 i2 s h
  cases i <;> simp only [encode, List.cons_prefix_cons, List.nil_prefix, and_true] at h
  case movRegReg a u => obtain rfl := h; exact movRegReg_row a u i1 i2 s
  case movMemReg j1 u => obtain ⟨rfl, rfl⟩ := h; exact movMemReg_row u j1 i2 s
  case movRegMem a j1 => obtain ⟨rfl, rfl⟩ := h; exact movRegMem_row a j1 i2 s
  case movImmMem j1 j2 => obtain ⟨rfl, rfl, rfl⟩ := h; exact movImmMem_row j1 j2 s
  case addRegRegMem a c j1 => obtain ⟨rfl, rfl⟩ := h; exact regRegMem_row rfl a c j1 i2 s
  case addMemRegReg j1 c u => obtain ⟨rfl, rfl⟩ := h; exact memRegReg_row rfl c u j1 i2 s
  case addMemImmReg j1 j2 u => obtain ⟨rfl, rfl, rfl⟩ := h; exact memImmReg_row rfl u j1 j2 s
  case subRegRegMem a c j1 => obtain ⟨rfl, rfl⟩ := h; exact regRegMem_row rfl a c j1 i2 s
  case subMemRegReg j1 c u => obtain ⟨rfl, rfl⟩ := h; exact memRegReg_row rfl c u j1 i2 s
  case subMemImmReg j1 j2 u => obtain ⟨rfl, rfl, rfl⟩ := h; exact memImmReg_row rfl u j1 j2 s
  case nandRegRegMem a c j1 => obtain ⟨rfl, rfl⟩ := h; exact regRegMem_row rfl a c j1 i2 s
  case nandMemRegReg j1 c u => obtain ⟨rfl, rfl⟩ := h; exact memRegReg_row rfl c u j1 i2 s
  case nandMemImmReg j1 j2 u => obtain ⟨rfl, rfl, rfl⟩ := h; exact memImmReg_row rfl u j1 j2 s
  case mskRegRegMem a c j1 => obtain ⟨rfl, rfl⟩ := h; exact regRegMem_row rfl a c j1 i2 s
  case mskMemRegReg j1 c u => obtain ⟨rfl, rfl⟩ := h; exact memRegReg_row rfl c u j1 i2 s
  case mskMemImmReg j1 j2 u => obtain ⟨rfl, rfl, rfl⟩ := h; exact memImmReg_row rfl u j1 j2 s
  case jmpMem j1 => obtain ⟨rfl, rfl⟩ := h; exact jmpMem_row j1 i2 s
  case jmpImm j1 => obtain ⟨rfl, rfl⟩ := h; exact jmpImm_row j1 i2 s
  case jlMem j1 => obtain ⟨rfl, rfl⟩ := h; exact simpleMem_row .lam j1 i2 s
  case jlImm j1 => obtain ⟨rfl, rfl⟩ := h; exact simpleImm_row .lam j1 i2 s
  case jeMem j1 => obtain ⟨rfl, rfl⟩ := h; exact simpleMem_row .zero j1 i2 s
  case jeImm j1 => obtain ⟨rfl, rfl⟩ := h; exact simpleImm_row .zero j1 i2 s
  case jgMem j1 => obtain ⟨rfl, rfl⟩ := h; exact simpleMem_row .one j1 i2 s
  case jgImm j1 => obtain ⟨rfl, rfl⟩ := h; exact simpleImm_row .one j1 i2 s
  case jleMemImm j1 j2 => obtain ⟨rfl, rfl, rfl⟩ := h; exact complex_row rfl .one s
  case jleImmImm j1 j2 => obtain ⟨rfl, rfl, rfl⟩ := h; exact complex_row rfl .one s
  case jleImmMem j1 j2 => obtain ⟨rfl, rfl, rfl⟩ := h; exact complex_row rfl .one s
  case jlgMemImm j1 j2 => obtain ⟨rfl, rfl, rfl⟩ := h; exact complex_row rfl .zero s
  case jlgImmImm j1 j2 => obtain ⟨rfl, rfl, rfl⟩ := h; exact complex_row rfl .zero s
  case jlgImmMem j1 j2 => obtain ⟨rfl, rfl, rfl⟩ := h; exact complex_row rfl .zero s
  case jegMemImm j1 j2 => obtain ⟨rfl, rfl, rfl⟩ := h; exact complex_row rfl .lam s
  case jegImmImm j1 j2 => obtain ⟨rfl, rfl, rfl⟩ := h; exact complex_row rfl .lam s
  case jegImmMem j1 j2 => obtain ⟨rfl, rfl, rfl⟩ := h; exact complex_row rfl .lam s
  case finish => obtain rfl := h; exact finish_row i1 i2 s
  case reboot => obtain rfl := h; exact reboot_row i1 i2 s

end Sys2Proof.Proofs.DataPath
end
